-- ==== Sys2Proof/Word.lean ====
section
/-! DEFINITION. The bit vectors of the unit: command word, operand buses, shape code, width field, error code. -/

namespace Sys2Proof

/-- The 32-bit command word on port `cmd` (R40, R41). -/
abbrev Cmd := BitVec 32

/-- A 64-bit operand or result bus: `a_raw`, `b_raw`, `r_raw` (R4, R21). -/
abbrev Bus := BitVec 64

/-- The 15-bit result shape on port `r_fmt` (R21, R47). -/
abbrev Fmt := BitVec 15

/-- A 7-bit width field, 0 to 127 (R4, R41). -/
abbrev Width := BitVec 7

/-- The 3-bit exception code on port `err` (R21, R130). -/
abbrev ErrCode := BitVec 3

end Sys2Proof
end

