-- ==== Sys2Proof/Syntax.lean ====
section
/-! DEFINITION. Shapes, the four request operations, the four exceptions, and the instruction type: one constructor
per row of spec/opcode_table.json. -/

namespace Sys2Proof

/-- A shape `(W, F, S)`: whole width, fractional width, signedness (00_scope.md section 5.2; fields of R41). -/
structure Shape where
  /-- whole width `W` -/
  w : Width
  /-- fractional width `F` -/
  f : Width
  /-- signed -/
  s : Bool
deriving DecidableEq, Repr

/-- The four operations the `op` field selects (R43). -/
inductive Op where
  | add
  | sub
  | mul
  | div
deriving DecidableEq, Repr

/-- The four causes a request can be refused for (R130). -/
inductive Cause where
  /-- no policy bound since reset (R131) -/
  | notConfigured
  /-- a shape of the request is illegal (R132) -/
  | widthConfig
  /-- the operands' signedness differs (R133) -/
  | mixedSign
  /-- DIV with the zero pattern as operand B (R134) -/
  | divideByZero
deriving DecidableEq, Repr

/-- The instructions of the unit. A request carries the shapes of its operands A and B; the operand patterns are on
the buses. -/
inductive Instr where
  /-- ADD (R80) -/
  | add (a b : Shape)
  /-- SUB (R90) -/
  | sub (a b : Shape)
  /-- MUL (R100) -/
  | mul (a b : Shape)
  /-- DIV (R110) -/
  | div (a b : Shape)
  /-- CFGW with the policy bit on `cfg_sat` (R120) -/
  | cfgw (sat : Bool)
deriving DecidableEq, Repr

end Sys2Proof
end

