-- ==== Sys2Proof/Decode.lean ====
section
/-! DEFINITION. The decoder of the command word and of the configuration port, and the encoder written from the same
layout (R41, R42, R43, R120). -/

namespace Sys2Proof

/-- The operation an `op` field selects; all four values are defined (R43). -/
def opOfBits (v : BitVec 2) : Op :=
  if v = 0 then .add else if v = 1 then .sub else if v = 2 then .mul else .div

/-- The `op` field of an operation (R43). -/
def bitsOfOp : Op → BitVec 2
  | .add => 0
  | .sub => 1
  | .mul => 2
  | .div => 3

/-- The request of an operation on two operand shapes. -/
def requestOf : Op → Shape → Shape → Instr
  | .add, a, b => .add a b
  | .sub, a, b => .sub a b
  | .mul, a, b => .mul a b
  | .div, a, b => .div a b

/-- Operand A's shape `(cmd[8:2], cmd[15:9], cmd[16])` (R42). -/
def shapeA (cmd : Cmd) : Shape where
  w := cmd.extractLsb' 2 7
  f := cmd.extractLsb' 9 7
  s := cmd.getLsbD 16

/-- Operand B's shape `(cmd[23:17], cmd[30:24], cmd[31])` (R42). -/
def shapeB (cmd : Cmd) : Shape where
  w := cmd.extractLsb' 17 7
  f := cmd.extractLsb' 24 7
  s := cmd.getLsbD 31

/-- Every one of the `2^32` command words names a request (R42, R43, R46). -/
def decodeCmd (cmd : Cmd) : Instr := requestOf (opOfBits (cmd.extractLsb' 0 2)) (shapeA cmd) (shapeB cmd)

/-- The configuration port's one bit (R120). -/
def decodeCfg (sat : Bool) : Instr := .cfgw sat

/-- Why bits offered to the unit are no instruction. -/
inductive DecodeError where
  /-- no port of the unit takes an instruction of this many bits -/
  | noSuchPort (nbits : Nat)
  /-- a bit is set that the port does not have -/
  | bitsBeyondPort (nbits word : Nat)
deriving DecidableEq, Repr

/-- The instruction of `nbits` bits `word`, numbered as the opcode table numbers them: 32 bits are a command word,
and 1 bit is `cfg_sat` on the configuration port. DESIGN CHOICE (log entry 7): one byte may hold that one bit, since the
table is asked about in whole bytes; bits of any other length are no instruction. -/
def decode (nbits word : Nat) : Except DecodeError Instr :=
  if nbits = 32 then
    if word < 2 ^ 32 then .ok (decodeCmd (BitVec.ofNat 32 word)) else .error (.bitsBeyondPort nbits word)
  else if nbits = 1 ∨ nbits = 8 then
    if word < 2 then .ok (decodeCfg (word == 1)) else .error (.bitsBeyondPort nbits word)
  else .error (.noSuchPort nbits)

/-- The decoder as the host asks for it. -/
def decodeTableWord (nbits w : Nat) : Option Instr :=
  match decode nbits w with
  | .ok i => some i
  | .error _ => none

/-- The command word of a request: `{Bs, Bf, Bw, As, Af, Aw, op}` (R41). -/
def encodeCmd (op : Op) (a b : Shape) : Cmd :=
  BitVec.ofBool b.s ++ b.f ++ b.w ++ BitVec.ofBool a.s ++ a.f ++ a.w ++ bitsOfOp op

/-- An instruction's bits and how many they are. -/
structure Encoded where
  /-- the width of the port the instruction is offered on -/
  nbits : Nat
  /-- the bits, bit 0 least significant -/
  word : Nat
deriving DecidableEq, Repr

/-- The encoder (R41, R120). -/
def encode : Instr → Encoded
  | .add a b => ⟨32, (encodeCmd .add a b).toNat⟩
  | .sub a b => ⟨32, (encodeCmd .sub a b).toNat⟩
  | .mul a b => ⟨32, (encodeCmd .mul a b).toNat⟩
  | .div a b => ⟨32, (encodeCmd .div a b).toNat⟩
  | .cfgw sat => ⟨1, sat.toNat⟩

/-- Pseudo-instruction ADDS: ADD with both shapes equal (R51). -/
def assembleAdds (t : Shape) : Instr := .add t t

/-- Pseudo-instruction ADDA: the same command word as ADDS; the store-back is the host's (R52, R25). -/
def assembleAdda (t : Shape) : Instr := assembleAdds t

end Sys2Proof
end

