-- ==== Sys2Proof/Config.lean ====
section
/-! DEFINITION. The parameters of the unit (R4) and its one free value. -/

namespace Sys2Proof.Config

/-- MAXBITS: the largest legal `W+F` of any operand, result or intermediate shape (R4). -/
def maxBits : Nat := 64

/-- MINBITS: the smallest legal `W+F` (R4). -/
def minBits : Nat := 1

/-- FREE VALUE (log entry 2): what `CFG.SAT` holds after a reset taken during a run, which the spec leaves
unspecified (R16, U14). The argument is the state's draw counter. Nothing is known of it. -/
opaque satAfterReset : Nat → Bool

end Sys2Proof.Config
end

