-- ==== Sys2Proof/Machine/Operands.lean ====
section
/-! DEFINITION. Shapes and patterns: widths, ranges, the integer a pattern stands for, wrapping, the width-promotion
multiplexer, operand assembly from a bus, the alignment shift, the shape code of `r_fmt`, and rounding division. All
arithmetic is on unbounded integers (00_scope.md section 5.1). -/

namespace Sys2Proof.Machine

/-- `n(T) = W + F` (00_scope.md section 5.2). -/
def width (t : Shape) : Nat := t.w.toNat + t.f.toNat

/-- A shape is legal exactly when `1 ≤ W+F ≤ 64` (R5). -/
def legalShape (t : Shape) : Bool :=
  decide (Config.minBits ≤ width t) && decide (width t ≤ Config.maxBits)

/-- `max_val(T)` (R20, R72). -/
def maxVal (t : Shape) : Int := if t.s then 2 ^ (width t - 1) - 1 else 2 ^ width t - 1

/-- `min_val(T)` (00_scope.md section 5.2). -/
def minVal (t : Shape) : Int := if t.s then -2 ^ (width t - 1) else 0

/-- `val_T(p)`: the integer a pattern stands for, two's complement when signed (00_scope.md section 5.2, R19). -/
def val (t : Shape) (p : Nat) : Int :=
  if t.s then (if p < 2 ^ (width t - 1) then (p : Int) else (p : Int) - 2 ^ width t) else (p : Int)

/-- `pat_n(v) = v mod 2^n` (00_scope.md section 5.2). -/
def pat (n : Nat) (v : Int) : Nat := (v % 2 ^ n).toNat

/-- `wrap_T(v)` (00_scope.md section 5.2). -/
def wrap (t : Shape) (v : Int) : Int := val t (pat (width t) v)

/-- `sign_T(p)`: bit `n-1` of a signed pattern, 0 for an unsigned one (00_scope.md section 5.2). -/
def signBit (t : Shape) (p : Nat) : Bool := t.s && p.testBit (width t - 1)

/-- The width-promotion multiplexer: two multiplexers steered by comparators and one AND gate (R60, R61). -/
def promote (a b : Shape) : Shape where
  w := if b.w ≤ a.w then a.w else b.w
  f := if b.f ≤ a.f then a.f else b.f
  s := a.s && b.s

/-- The operand pattern on a bus: its low `W+F` bits; the bits above are ignored (R44). -/
def operand (t : Shape) (bus : Bus) : Nat := bus.toNat % 2 ^ width t

/-- The aligned value `val_T(p) * 2^(mf - F)` of a pattern of shape `t` in the result shape `r` (R64). -/
def aligned (r t : Shape) (p : Nat) : Int := val t p * 2 ^ (r.f.toNat - t.f.toNat)

/-- Whether a request of this operation and these operand shapes raises `WidthConfig`: an operand shape, the promoted
shape, or for MUL the doubled-width intermediate shape is illegal (R132, R45, R62, R101). -/
def widthIllegal (op : Op) (a b : Shape) : Bool :=
  !legalShape a || !legalShape b || decide (Config.maxBits < width (promote a b)) ||
    (op == .mul && decide (Config.maxBits < 2 * width (promote a b)))

/-- `r_fmt = {rs, mf, mw}` (R47). -/
def fmtOf (t : Shape) : Fmt := BitVec.ofBool t.s ++ t.f ++ t.w

/-- The shape a response's `r_fmt` names, for use as an operand shape of a later request (R47, R53). -/
def shapeOfFmt (v : Fmt) : Shape where
  w := v.extractLsb' 0 7
  f := v.extractLsb' 7 7
  s := v.getLsbD 14

/-- `round_haz(N, D)`: the integer nearest to `N/D`, a tie going away from zero (00_scope.md section 5.2). -/
def roundHaz (n d : Int) : Int :=
  (if decide (n < 0) != decide (d < 0) then -1 else 1) *
    (((2 * n.natAbs + d.natAbs) / (2 * d.natAbs) : Nat) : Int)

end Sys2Proof.Machine
end

