-- ==== Sys2Proof/Machine/Flags.lean ====
section
/-! DEFINITION. The unit has no flags (R12). What it computes in their place are the internal overflow bits of ADD and
MUL (the saturation comparator) and the clamper they steer. -/

namespace Sys2Proof.Machine

/-- The comparator of ADD: the wrapped sum is below an aligned operand, or the exact sum exceeds `max_val` (R67). -/
def ovfAdd (r : Shape) (aa ab : Int) : Bool :=
  decide (wrap r (aa + ab) < aa) || decide (wrap r (aa + ab) < ab) || decide (maxVal r < aa + ab)

/-- The bit position `k = mw + 2*mf - rs` from which the comparator of MUL looks at the intermediate (R69). -/
def ovfMulPos (r : Shape) : Nat := r.w.toNat + 2 * r.f.toNat - r.s.toNat

/-- The comparator of MUL: a bit of the `2*nr`-bit intermediate at position `k` or above is 1 (R69). -/
def ovfMul (r : Shape) (aa ab : Int) : Bool := pat (2 * width r) (aa * ab) >>> ovfMulPos r != 0

/-- The clamper: `max_val(R)` when the policy saturates and the comparator fires, else the wrapped result (R71). -/
def clamp (sat ovf : Bool) (r : Shape) (w : Nat) : Nat := if sat && ovf then (maxVal r).toNat else w

/-- `c & ~(1 << (n-1))` on `n` bits: the sign-bit clear of MUL (R100). -/
def clearSign (n c : Nat) : Nat := c &&& (2 ^ n - 1 - 2 ^ (n - 1))

end Sys2Proof.Machine
end

