-- ==== Sys2Proof/Machine/State.lean ====
section
/-! DEFINITION. The state of the unit: the configuration register, the ports, what the host drives in later cycles,
and the counter free values are drawn with; reset; the reasons a step could stop. -/

namespace Sys2Proof.Machine

/-- The 2-bit configuration register `CFG` (R13). -/
structure Cfg where
  /-- bit 1, `VALID`: `SAT` has been bound -/
  valid : Bool
  /-- bit 0, `SAT`: 1 = saturate, 0 = wrap -/
  sat : Bool
deriving DecidableEq, Repr

/-- The input ports in one clock cycle (R21). -/
structure Ports where
  /-- `rst`: synchronous reset, active high -/
  rst : Bool
  /-- `cfg_we`: perform CFGW at the edge that ends this cycle -/
  cfgWe : Bool
  /-- `cfg_sat`: the operand of CFGW -/
  cfgSat : Bool
  /-- `req_valid`: `cmd`, `a_raw`, `b_raw` hold a request -/
  reqValid : Bool
  /-- `cmd`: the command word -/
  cmd : Cmd
  /-- `a_raw`: operand A's bus -/
  aRaw : Bus
  /-- `b_raw`: operand B's bus -/
  bRaw : Bus
deriving DecidableEq, Repr

/-- The output ports in one clock cycle (R21). -/
structure Response where
  /-- `rsp_valid` -/
  rspValid : Bool
  /-- `r_raw`: result pattern -/
  rRaw : Bus
  /-- `r_fmt`: result shape -/
  rFmt : Fmt
  /-- `err`: exception code, 0 for a result -/
  err : ErrCode
deriving DecidableEq, Repr

/-- The input ports with nothing asserted and zero on every bus. -/
def idlePorts : Ports where
  rst := false
  cfgWe := false
  cfgSat := false
  reqValid := false
  cmd := 0
  aRaw := 0
  bRaw := 0

/-- The output ports in a cycle without a request: all zero (R24). -/
def idleResponse : Response where
  rspValid := false
  rRaw := 0
  rFmt := 0
  err := 0

/-- The machine at the start of a clock cycle, `port` being what the host drives in it. -/
structure State where
  /-- the configuration register, the unit's only register (R13, R17) -/
  cfg : Cfg
  /-- the input ports in the current cycle (R21) -/
  port : Ports
  /-- the output ports as they were driven in the last completed cycle (R21) -/
  out : Response
  /-- the model's own field (log entry 4): what the host drives in the cycles after this one, oldest first -/
  drive : List Ports
  /-- the model's own field (log entry 3): how many free values have been drawn -/
  freeCount : Nat
deriving DecidableEq, Repr

/-- Nothing raises a fault: every exception of the unit is a response (R136, log entry 8), and the next request is
always accepted (R142), so this type has no constructor and no step of the model can answer a fault. Safe: there is no
fault a proof could lean on. -/
inductive Fault where
deriving DecidableEq, Repr

/-- The reasons a step is refused. -/
inductive Refusal where
  /-- raised by an arm of `exec` whose instruction has no meaning yet; no arm raises it. Safe: the model stops. -/
  | notModelled (mnemonic : String)
deriving DecidableEq, Repr

/-- Right after reset: unbound (R16), `SAT` at the value of log entry 1, no port driven (log entries 5 and 6), nothing
queued (log entry 4). -/
def State.reset : State where
  cfg := { valid := false, sat := false }
  port := idlePorts
  out := idleResponse
  drive := []
  freeCount := 0

end Sys2Proof.Machine
end

