-- ==== Sys2Proof/Machine/Ops.lean ====
section
/-! DEFINITION. The named operations over the state: reading the policy and the operands, driving the output ports,
taking an exception, binding and clearing the policy, and the checks every request goes through. -/

namespace Sys2Proof.Machine

/-- `CFG.VALID` (R15). -/
def policyBound (s : State) : Bool := s.cfg.valid

/-- `CFG.SAT` (R14). -/
def policy (s : State) : Bool := s.cfg.sat

/-- Operand A's pattern, from `a_raw` (R44). -/
def operandA (a : Shape) (s : State) : Nat := operand a s.port.aRaw

/-- Operand B's pattern, from `b_raw` (R44). -/
def operandB (b : Shape) (s : State) : Nat := operand b s.port.bRaw

/-- `aa`: operand A aligned to the promoted shape (R64). -/
def alignedA (a b : Shape) (s : State) : Int := aligned (promote a b) a (operandA a s)

/-- `ab`: operand B aligned to the promoted shape (R64). -/
def alignedB (a b : Shape) (s : State) : Int := aligned (promote a b) b (operandB b s)

/-- Drive the output ports. -/
def setOut (o : Response) (s : State) : State := { s with out := o }

/-- The output ports of a successful response: pattern `r` of shape `t` (R47). -/
def resultResponse (r : Nat) (t : Shape) : Response where
  rspValid := true
  rRaw := BitVec.ofNat 64 r
  rFmt := fmtOf t
  err := 0

/-- The code of an exception (R130). -/
def causeCode : Cause → ErrCode
  | .notConfigured => 1
  | .widthConfig => 2
  | .mixedSign => 3
  | .divideByZero => 4

/-- The output ports of a failed response: the code, and zero on every result port (R136). -/
def errorResponse (c : Cause) : Response where
  rspValid := true
  rRaw := 0
  rFmt := 0
  err := causeCode c

/-- `respond(r, R)` (R47). -/
def respond (r : Nat) (t : Shape) (s : State) : State := setOut (resultResponse r t) s

/-- Taking an exception: the response carries its code; nothing is saved and control goes nowhere (R136). There is no
return from one (R137). -/
def raise (c : Cause) (s : State) : State := setOut (errorResponse c) s

/-- The binding write of CFGW: `SAT` takes the operand, `VALID` becomes 1 (R120). -/
def bindPolicy (sat : Bool) (s : State) : State := { s with cfg := { valid := true, sat := sat } }

/-- Reset: `VALID` becomes 0 and `SAT` unspecified, a free value (R16, R150, log entry 2). -/
def clearPolicy (s : State) : State :=
  { s with cfg := { valid := false, sat := Config.satAfterReset s.freeCount }, freeCount := s.freeCount + 1 }

/-- The checks of `Execute`, in order: the first that fails decides the response (R46, R135). -/
def requestCause (op : Op) (a b : Shape) (s : State) : Option Cause :=
  if policyBound s = false then some .notConfigured
  else if widthIllegal op a b then some .widthConfig
  else if a.s != b.s then some .mixedSign
  else if op == .div && operandB b s == 0 then some .divideByZero
  else none

/-- The response to a request whose arithmetic gives the pattern `r`: the exception the checks find, else `r` in the
promoted shape (R46). -/
def answer (op : Op) (a b : Shape) (r : Nat) (s : State) : Host.Outcome State Fault Refusal :=
  match requestCause op a b s with
  | some c => .next (raise c s)
  | none => .next (respond r (promote a b) s)

end Sys2Proof.Machine
end

