-- ==== Sys2Proof/Machine/Add.lean ====
section
/-! DEFINITION. The meaning of ADD (R80). -/

namespace Sys2Proof.Machine

/-- The exact sum modulo `2^nr`, through the clamper (R80). -/
def addPattern (sat : Bool) (r : Shape) (aa ab : Int) : Nat :=
  clamp sat (ovfAdd r aa ab) r (pat (width r) (aa + ab))

/-- ADD (R80). -/
def execAdd (a b : Shape) (s : State) : Host.Outcome State Fault Refusal :=
  answer .add a b (addPattern (policy s) (promote a b) (alignedA a b s) (alignedB a b s)) s

end Sys2Proof.Machine
end

