-- ==== Sys2Proof/Machine/Cfgw.lean ====
section
/-! DEFINITION. The meaning of CFGW (R120). -/

namespace Sys2Proof.Machine

/-- CFGW: the first write after reset binds the policy; a later one is ignored (R120). -/
def execCfgw (sat : Bool) (s : State) : Host.Outcome State Fault Refusal :=
  if policyBound s then .next s else .next (bindPolicy sat s)

end Sys2Proof.Machine
end

