-- ==== Sys2Proof/Machine/Div.lean ====
section
/-! DEFINITION. The meaning of DIV (R110). -/

namespace Sys2Proof.Machine

/-- The quotient at scale `2^-mf`, rounded to nearest with ties away from zero, modulo `2^nr`, never clamped
(R110). -/
def divPattern (r : Shape) (aa ab : Int) : Nat := pat (width r) (roundHaz (aa * 2 ^ r.f.toNat) ab)

/-- DIV (R110); a zero divisor raises `DivideByZero` in the checks (R111). -/
def execDiv (a b : Shape) (s : State) : Host.Outcome State Fault Refusal :=
  answer .div a b (divPattern (promote a b) (alignedA a b s) (alignedB a b s)) s

end Sys2Proof.Machine
end

