-- ==== Sys2Proof/Machine/Mul.lean ====
section
/-! DEFINITION. The meaning of MUL (R100). -/

namespace Sys2Proof.Machine

/-- The exact product rescaled by a floor division by `2^mf`, modulo `2^nr`, through the clamper, with the sign bit
cleared when the request is signed and the operands' sign bits agree (R100). -/
def mulPattern (sat : Bool) (r : Shape) (sameSign : Bool) (aa ab : Int) : Nat :=
  let c := clamp sat (ovfMul r aa ab) r (pat (width r) (aa * ab / 2 ^ r.f.toNat))
  if r.s && sameSign then clearSign (width r) c else c

/-- MUL (R100). -/
def execMul (a b : Shape) (s : State) : Host.Outcome State Fault Refusal :=
  answer .mul a b
    (mulPattern (policy s) (promote a b) (signBit a (operandA a s) == signBit b (operandB b s))
      (alignedA a b s) (alignedB a b s)) s

end Sys2Proof.Machine
end

