-- ==== Sys2Proof/Machine/Sub.lean ====
section
/-! DEFINITION. The meaning of SUB (R90). -/

namespace Sys2Proof.Machine

/-- The exact difference A minus B modulo `2^nr`, never clamped (R90). -/
def subPattern (r : Shape) (aa ab : Int) : Nat := pat (width r) (aa - ab)

/-- SUB (R90). -/
def execSub (a b : Shape) (s : State) : Host.Outcome State Fault Refusal :=
  answer .sub a b (subPattern (promote a b) (alignedA a b s) (alignedB a b s)) s

end Sys2Proof.Machine
end

