-- ==== Sys2Proof/Machine/Cycle.lean ====
section
/-! DEFINITION. The parts of one clock cycle (R22): the combinational response, the rising edge, and the host's drive of
the next cycle; and the listing forms, each one cycle's port values (R50, R53, R54). -/

namespace Sys2Proof.Machine

/-- The response of the cycle: the request on the ports, else the idle outputs (R22, R24). -/
def respondPhase (s : State) : Host.Outcome State Fault Refusal :=
  if s.port.reqValid then exec (decodeCmd s.port.cmd) s else .next (setOut idleResponse s)

/-- The rising edge that ends the cycle: reset wins over CFGW (R22, R16, R120). -/
def edgePhase (s : State) : Host.Outcome State Fault Refusal :=
  if s.port.rst then .next (clearPolicy s)
  else if s.port.cfgWe then exec (decodeCfg s.port.cfgSat) s
  else .next s

/-- The next cycle begins: the ports take what the host drives in it, nothing if it drives nothing (log entry 4). -/
def advance (s : State) : State :=
  match s.drive with
  | [] => { s with port := idlePorts }
  | p :: ps => { s with port := p, drive := ps }

/-- Continue with the next state, or stop where the first part stopped. -/
def andThen (o : Host.Outcome State Fault Refusal) (k : State → Host.Outcome State Fault Refusal) :
    Host.Outcome State Fault Refusal :=
  match o with
  | .next s => k s
  | .fault r => .fault r
  | .refused r => .refused r

/-- One clock cycle (R22). -/
def cycle (s : State) : Host.Outcome State Fault Refusal :=
  andThen (respondPhase s) fun s1 => andThen (edgePhase s1) fun s2 => .next (advance s2)

/-- Exactly one instruction offered in the current cycle: a command word on the request port, or CFGW on the
configuration port; reset and the other port are not asserted, and the operand buses keep what they hold. Bits that are
no instruction change nothing. -/
def offer (nbits w : Nat) (s : State) : State :=
  match decode nbits w with
  | .error _ => s
  | .ok (.cfgw sat) =>
    { s with port := { s.port with rst := false, reqValid := false, cfgWe := true, cfgSat := sat } }
  | .ok _ =>
    { s with port := { s.port with rst := false, cfgWe := false, reqValid := true, cmd := BitVec.ofNat 32 w } }

/-- The listing line `<op> A a, B b` (R50). -/
def requestLine (op : Op) (a b : Shape) (aRaw bRaw : Bus) : Ports :=
  { idlePorts with reqValid := true, cmd := encodeCmd op a b, aRaw := aRaw, bRaw := bRaw }

/-- The listing lines `CFGW SAT` and `CFGW WRAP` (R54). -/
def cfgwLine (sat : Bool) : Ports := { idlePorts with cfgWe := true, cfgSat := sat }

/-- The listing line `RESET` (R54). -/
def resetLine : Ports := { idlePorts with rst := true }

/-- A named result as operand A of a later line: shape and pattern are taken from the response (R53). -/
def requestLineFrom (op : Op) (named : Response) (b : Shape) (bRaw : Bus) : Ports :=
  requestLine op (shapeOfFmt named.rFmt) b named.rRaw bRaw

end Sys2Proof.Machine
end

