-- ==== Sys2Proof/Machine/Step.lean ====
section
/-! DEFINITION. One step of the machine is one clock cycle (R22). -/

namespace Sys2Proof.Machine

/-- One step: one clock cycle. -/
def step (s : State) : Host.Outcome State Fault Refusal := cycle s

/-- `s` with exactly one instruction offered in its current cycle, so that `step` runs it (log entry 7). -/
def State.withFetchWord (s : State) (nbits w : Nat) : State := offer nbits w s

end Sys2Proof.Machine
end

