-- ==== Sys2Proof/Machine/Values.lean ====
section
/-! DEFINITION. The value notation the spec writes its examples in (R6, R7, R8): not operations of the unit
(R3), used by statements about its results. -/

namespace Sys2Proof.Machine

/-- `real_T(p) = val_T(p) * 2^-F` (00_scope.md section 5.2, R18). -/
def realVal (t : Shape) (p : Nat) : ℚ := (val t p : ℚ) / 2 ^ t.f.toNat

/-- `Value<W,F,S>(x)` for an `x` whose `x * 2^F` is the integer `scaled` (R6). A negative `x` with an unsigned shape has
no meaning (R6; 93_implementation_defined.md U7: refuse), so there is no pattern. DESIGN CHOICE (log entry 10): the
number is given by `scaled`, so that `round` and its open tie rule are not needed. -/
def construct (sat : Bool) (t : Shape) (scaled : Int) : Option Nat :=
  if t.s = false ∧ scaled < 0 then none
  else if sat = true ∧ maxVal t < scaled then some (maxVal t).toNat
  else some (pat (width t) scaled)

/-- `get_whole = to_int = raw >> F` (R7). -/
def getWhole (t : Shape) (p : Nat) : Int := val t p / 2 ^ t.f.toNat

/-- `get_frac = raw & (2^F - 1)` (R7). -/
def getFrac (t : Shape) (p : Nat) : Nat := p &&& (2 ^ t.f.toNat - 1)

/-- `fractional`: the sum of `2^-i` over each set bit `F - i`, `i` from 1 to `F` (R7). -/
def fractional (t : Shape) (p : Nat) : ℚ :=
  ((List.range t.f.toNat).map fun k => if p.testBit (t.f.toNat - (k + 1)) then (1 : ℚ) / 2 ^ (k + 1) else 0).sum

/-- `to_double = to_float = whole + fractional`, exactly (R7). -/
def toReal (t : Shape) (p : Nat) : ℚ := getWhole t p + fractional t p

/-- The bit characters of a pattern from bit `n-1` down to bit 0. -/
def bitChars : Nat → Nat → List Char
  | 0, _ => []
  | n + 1, p => (if p.testBit n then '1' else '0') :: bitChars n p

/-- `to_bitstring`: the bits, most significant first, with a point after the `W`-th (R8). -/
def toBitstring (t : Shape) (p : Nat) : List Char :=
  (bitChars (width t) p).take t.w.toNat ++ '.' :: (bitChars (width t) p).drop t.w.toNat

/-- The number a list of binary digits reads as. -/
def readBits (cs : List Char) : Nat := cs.foldl (fun n c => 2 * n + if c = '1' then 1 else 0) 0

end Sys2Proof.Machine
end

