-- ==== Sys2Proof/WellFormed.lean ====
section
/-! DEFINITION. Which instructions are legal commands (R45). An illegal command decodes and is answered with an
exception (log entry 8). -/

namespace Sys2Proof

/-- A request is legal when every shape it names or builds is legal and the operands agree in signedness (R45). -/
def legalRequest (op : Op) (a b : Shape) : Bool := !Machine.widthIllegal op a b && a.s == b.s

/-- The legal instructions (R45). CFGW is always legal (R120). -/
def Instr.wf : Instr → Bool
  | .add a b => legalRequest .add a b
  | .sub a b => legalRequest .sub a b
  | .mul a b => legalRequest .mul a b
  | .div a b => legalRequest .div a b
  | .cfgw _ => true

end Sys2Proof
end

