-- ==== Sys2Proof/Safety.lean ====
section
/-! DEFINITION. What claims about the unit are stated with: the conditions of a request that is answered with a result,
the invariant of the output ports, the observations of a run, and the event view of the unit (R23) with `Execute`
written out as the spec writes it (R46), apart from the machine. -/

namespace Sys2Proof.Machine

/-- The width conditions of R132 and R45, in numbers: both operand shapes, the promoted shape, and for MUL the
doubled-width intermediate shape are legal. -/
abbrev WidthsFit (op : Op) (a b : Shape) : Prop :=
  (1 ≤ a.w.toNat + a.f.toNat ∧ a.w.toNat + a.f.toNat ≤ 64) ∧
  (1 ≤ b.w.toNat + b.f.toNat ∧ b.w.toNat + b.f.toNat ≤ 64) ∧
  max a.w.toNat b.w.toNat + max a.f.toNat b.f.toNat ≤ 64 ∧
  (op = .mul → 2 * (max a.w.toNat b.w.toNat + max a.f.toNat b.f.toNat) ≤ 64)

/-- A failed response with an exception code (R136). -/
def failed (code : ErrCode) : Response := { rspValid := true, rRaw := 0, rFmt := 0, err := code }

/-- The state after a successful response: pattern `r` of shape `t` on the output ports (R47), all else as it was. -/
def respondsWith (s : State) (r : Nat) (t : Shape) : State :=
  { s with out := { rspValid := true, rRaw := BitVec.ofNat 64 r, rFmt := fmtOf t, err := 0 } }

/-- What the checks every request goes through do before any arithmetic: the first that fails answers with its code and
changes nothing else (R131, R132, R133, R135, R136). -/
def RefusedByChecks (op : Op) (a b : Shape) (s : State) : Prop :=
  (s.cfg.valid = false → exec (requestOf op a b) s = .next { s with out := failed 1 }) ∧
  (s.cfg.valid = true → ¬WidthsFit op a b → exec (requestOf op a b) s = .next { s with out := failed 2 }) ∧
  (s.cfg.valid = true → WidthsFit op a b → a.s ≠ b.s →
    exec (requestOf op a b) s = .next { s with out := failed 3 })

/-- A cycle on a bound unit whose request, if there is one, has a result: a legal command, not a DIV by zero (R48). -/
def cleanCycle (p : Ports) : Bool :=
  !p.reqValid ||
    match decodeCmd p.cmd with
    | .div a b => (Instr.div a b).wf && operand b p.bRaw != 0
    | i => i.wf

/-- What the output ports may hold: zeros without a response (R24); a code that exists, with zeros beside it (R130,
R136); else a legal shape and a pattern of it, zero above its width (R18, R47). -/
def Response.Inv (o : Response) : Prop :=
  (o.rspValid = false → o.rRaw = 0 ∧ o.rFmt = 0 ∧ o.err = 0) ∧
  o.err.toNat ≤ 4 ∧
  (o.err ≠ 0 → o.rRaw = 0 ∧ o.rFmt = 0) ∧
  (o.rspValid = true → o.err = 0 →
    legalShape (shapeOfFmt o.rFmt) = true ∧ o.rRaw.toNat < 2 ^ width (shapeOfFmt o.rFmt))

/-- The invariant of the machine. -/
def State.Inv (s : State) : Prop := s.out.Inv

/-- What can be seen of a state: everything but the draw counter, and `SAT` only while it is bound (R13, R16). -/
structure Visible (s t : State) : Prop where
  valid : s.cfg.valid = t.cfg.valid
  sat : s.cfg.valid = true → s.cfg.sat = t.cfg.sat
  port : s.port = t.port
  out : s.out = t.out
  drive : s.drive = t.drive

/-- `n` clock cycles, stopping where a step stops. -/
def runCycles : Nat → State → Host.Outcome State Fault Refusal
  | 0, s => .next s
  | n + 1, s => andThen (step s) (runCycles n)

/-- The input ports in the cycle `n` cycles after the current one. -/
def portAt (s : State) (n : Nat) : Ports := (s.port :: s.drive).getD n idlePorts

/-- The events of the unit (R23). -/
inductive Event where
  | reset
  | cfgWrite (sat : Bool)
  | request (cmd : Cmd) (aRaw bRaw : Bus)
deriving DecidableEq, Repr

/-- The policy as the event view has it: none while unbound, so that there is no `SAT` then (R23, U14). -/
def boundPolicy (c : Cfg) : Option Bool := if c.valid then some c.sat else none

/-- What an event does to the policy (R23). -/
def nextPolicy : Option Bool → Event → Option Bool
  | _, .reset => none
  | none, .cfgWrite sat => some sat
  | some bound, .cfgWrite _ => some bound
  | c, .request _ _ _ => c

/-- The events of one cycle, in their order: a request comes before a configuration write or a reset (R23). -/
def eventsOf (p : Ports) : List Event :=
  (if p.reqValid then [.request p.cmd p.aRaw p.bRaw] else []) ++
    if p.rst then [.reset] else if p.cfgWe then [.cfgWrite p.cfgSat] else []

/-- The policy after the first `n` cycles. -/
def policyAfter (s : State) : Nat → Option Bool
  | 0 => boundPolicy s.cfg
  | n + 1 => (eventsOf (portAt s n)).foldl nextPolicy (policyAfter s n)

/-- `Execute` on the command word as a number, from the pseudocode of R46 and of R80, R90, R100, R110 read straight
through, sharing no operation with the machine. -/
def executeSpec (c : Option Bool) (cmd : Cmd) (aRaw bRaw : Bus) : Response :=
  match c with
  | none => failed 1
  | some sat =>
    let v := cmd.toNat
    let op := v % 4
    let aw := v / 2 ^ 2 % 128
    let af := v / 2 ^ 9 % 128
    let as := v / 2 ^ 16 % 2
    let bw := v / 2 ^ 17 % 128
    let bf := v / 2 ^ 24 % 128
    let bs := v / 2 ^ 31 % 2
    let na := aw + af
    let nb := bw + bf
    let mw := max aw bw
    let mf := max af bf
    let rs := as * bs
    let nr := mw + mf
    if ¬(1 ≤ na ∧ na ≤ 64) then failed 2
    else if ¬(1 ≤ nb ∧ nb ≤ 64) then failed 2
    else if nr > 64 then failed 2
    else if op = 2 ∧ 2 * nr > 64 then failed 2
    else if as ≠ bs then failed 3
    else
      let a : Nat := aRaw.toNat % 2 ^ na
      let b : Nat := bRaw.toNat % 2 ^ nb
      if op = 3 ∧ b = 0 then failed 4
      else
        let aNeg := as = 1 ∧ 2 ^ (na - 1) ≤ a
        let bNeg := bs = 1 ∧ 2 ^ (nb - 1) ≤ b
        let aa : Int := (if aNeg then (a : Int) - 2 ^ na else (a : Int)) * 2 ^ (mf - af)
        let ab : Int := (if bNeg then (b : Int) - 2 ^ nb else (b : Int)) * 2 ^ (mf - bf)
        let maxV : Int := 2 ^ (nr - rs) - 1
        let r : Int :=
          if op = 0 then
            let w := (aa + ab) % 2 ^ nr
            let sum := if rs = 1 ∧ 2 ^ (nr - 1) ≤ w then w - 2 ^ nr else w
            if sat = true ∧ (sum < aa ∨ sum < ab ∨ aa + ab > maxV) then maxV else w
          else if op = 1 then (aa - ab) % 2 ^ nr
          else if op = 2 then
            let p := aa * ab
            let w := p / 2 ^ mf % 2 ^ nr
            let c := if sat = true ∧ p % 2 ^ (2 * nr) / 2 ^ (mw + 2 * mf - rs) ≠ 0 then maxV else w
            if rs = 1 ∧ (aNeg ↔ bNeg) ∧ 2 ^ (nr - 1) ≤ c then c - 2 ^ (nr - 1) else c
          else
            let num := aa * 2 ^ mf
            let q : Int := (2 * |num| + |ab|) / (2 * |ab|)
            (if num < 0 ∧ 0 < ab ∨ 0 ≤ num ∧ ab < 0 then -q else q) % 2 ^ nr
        { rspValid := true, rRaw := BitVec.ofInt 64 r, rFmt := BitVec.ofNat 15 (mw + mf * 2 ^ 7 + rs * 2 ^ 14), err := 0 }

/-- The outputs of a cycle under the policy it begins with (R22). -/
def responseOf (c : Option Bool) (p : Ports) : Response :=
  if p.reqValid then executeSpec c p.cmd p.aRaw p.bRaw else idleResponse

end Sys2Proof.Machine
end

