-- ==== Sys2Proof/Certificates/Slice0/Obligations.lean ====
section
/-! DEFINITION. The statements for the provers, from the numbered rules of spec/. -/

open Sys2Proof Sys2Proof.Machine

/-! ### Encoding -/

/-- The decoder reads back every instruction the encoder writes, every operand at every value (R41, R42, R120). -/
def Obligations.DecodeInvertsEncode : Prop :=
  ∀ i : Instr, decode (encode i).nbits (encode i).word = .ok i

/-- Each word a port can carry has one meaning: encoding what was decoded gives the word back, so no bit is unused
(R41, R120). -/
def Obligations.EncodeInvertsDecode : Prop :=
  (∀ w i, decode 32 w = .ok i → encode i = ⟨32, w⟩) ∧ (∀ w i, decode 1 w = .ok i → encode i = ⟨1, w⟩)

/-- R41: the layout of `CMD`, as the number the rule gives, for the encoder and for the fields the decoder reads. -/
def Obligations.CommandWordAsNumber : Prop :=
  (∀ op a b, (encodeCmd op a b).toNat = (bitsOfOp op).toNat + a.w.toNat * 2 ^ 2 + a.f.toNat * 2 ^ 9 +
      a.s.toNat * 2 ^ 16 + b.w.toNat * 2 ^ 17 + b.f.toNat * 2 ^ 24 + b.s.toNat * 2 ^ 31) ∧
  (∀ cmd : Cmd, cmd.toNat = (cmd.extractLsb' 0 2).toNat + (shapeA cmd).w.toNat * 2 ^ 2 +
      (shapeA cmd).f.toNat * 2 ^ 9 + (shapeA cmd).s.toNat * 2 ^ 16 + (shapeB cmd).w.toNat * 2 ^ 17 +
      (shapeB cmd).f.toNat * 2 ^ 24 + (shapeB cmd).s.toNat * 2 ^ 31)

/-- R42: the fields of a command word, unsigned and as they stand. -/
def Obligations.DecodeReadsFields : Prop :=
  ∀ cmd : Cmd, decodeCmd cmd = requestOf (opOfBits (cmd.extractLsb' 0 2)) (shapeA cmd) (shapeB cmd) ∧
    (cmd.extractLsb' 0 2).toNat = cmd.toNat % 2 ^ 2 ∧
    (shapeA cmd).w.toNat = cmd.toNat / 2 ^ 2 % 2 ^ 7 ∧ (shapeA cmd).f.toNat = cmd.toNat / 2 ^ 9 % 2 ^ 7 ∧
    (shapeA cmd).s.toNat = cmd.toNat / 2 ^ 16 % 2 ∧
    (shapeB cmd).w.toNat = cmd.toNat / 2 ^ 17 % 2 ^ 7 ∧ (shapeB cmd).f.toNat = cmd.toNat / 2 ^ 24 % 2 ^ 7 ∧
    (shapeB cmd).s.toNat = cmd.toNat / 2 ^ 31 ∧
    width (shapeA cmd) = cmd.toNat / 2 ^ 2 % 2 ^ 7 + cmd.toNat / 2 ^ 9 % 2 ^ 7 ∧
    width (shapeB cmd) = cmd.toNat / 2 ^ 17 % 2 ^ 7 + cmd.toNat / 2 ^ 24 % 2 ^ 7

/-- From R43's table: the `op` field selects the operation, all four values are defined, and no command word is
CFGW. -/
def Obligations.OpFieldSelectsOperation : Prop :=
  ∀ cmd : Cmd,
    (cmd.toNat % 4 = 0 → decodeCmd cmd = .add (shapeA cmd) (shapeB cmd)) ∧
    (cmd.toNat % 4 = 1 → decodeCmd cmd = .sub (shapeA cmd) (shapeB cmd)) ∧
    (cmd.toNat % 4 = 2 → decodeCmd cmd = .mul (shapeA cmd) (shapeB cmd)) ∧
    (cmd.toNat % 4 = 3 → decodeCmd cmd = .div (shapeA cmd) (shapeB cmd)) ∧
    ∀ sat, decodeCmd cmd ≠ .cfgw sat

/-- Words the spec writes out (30_encoding.md section 7, 42_sub.md, 44_div.md) decode to the instructions they stand
for, and the configuration port's bit to CFGW. -/
def Obligations.WrittenOutWordsDecode : Prop :=
  decodeTableWord 32 0x04080614 = some (.add ⟨5, 3, false⟩ ⟨4, 4, false⟩) ∧
  decodeTableWord 32 0x030A0811 = some (.sub ⟨4, 4, false⟩ ⟨5, 3, false⟩) ∧
  decodeTableWord 32 0x84090812 = some (.mul ⟨4, 4, true⟩ ⟨4, 4, true⟩) ∧
  decodeTableWord 32 0x04080617 = some (.div ⟨5, 3, false⟩ ⟨4, 4, false⟩) ∧
  decodeTableWord 1 1 = some (.cfgw true) ∧ decodeTableWord 1 0 = some (.cfgw false)

/-- The shape code of `r_fmt` is the number 95_test_vectors.md section 2.5 gives, and no shape is lost in it. -/
def Obligations.ShapeCodeRoundTrip : Prop :=
  (∀ t : Shape, (fmtOf t).toNat = t.w.toNat + t.f.toNat * 2 ^ 7 + t.s.toNat * 2 ^ 14 ∧ shapeOfFmt (fmtOf t) = t) ∧
  ∀ v : Fmt, fmtOf (shapeOfFmt v) = v

/-! ### Legality and the checks -/

/-- R45 and R132: which commands are legal, and the exception each other one raises on a bound unit, whatever the
operand patterns are. -/
def Obligations.LegalCommandsAndTheirExceptions : Prop :=
  ∀ (op : Op) (a b : Shape),
    ((requestOf op a b).wf = true ↔ WidthsFit op a b ∧ a.s = b.s) ∧
    ∀ s : State, s.cfg.valid = true → (requestOf op a b).wf = false →
      exec (requestOf op a b) s =
        .next { s with out := { rspValid := true, rRaw := 0, rFmt := 0, err := if WidthsFit op a b then 3 else 2 } }

/-- R48: on a legal command the operand values matter to the error code in one case only. -/
def Obligations.OnlyZeroDivisorFailsLegalCommand : Prop :=
  ∀ (op : Op) (a b : Shape) (s : State), s.cfg.valid = true → WidthsFit op a b → a.s = b.s →
    ∃ t, exec (requestOf op a b) s = .next t ∧
      t.out.err = if op = .div ∧ s.port.bRaw.toNat % 2 ^ (b.w.toNat + b.f.toNat) = 0 then 4 else 0

/-- R62: a promoted shape wider than 64 bits is refused; it is never empty. -/
def Obligations.PromotedShapeTooWideRefused : Prop :=
  ∀ (op : Op) (a b : Shape) (s : State), legalShape a = true → legalShape b = true →
    1 ≤ width (promote a b) ∧
    (s.cfg.valid = true → 64 < width (promote a b) →
      exec (requestOf op a b) s = .next { s with out := failed 2 })

/-- R63 and R133: only operands of one signedness are executed, and the result has it; a request that gets so far with
two raises `MixedSign`. -/
def Obligations.MixedSignednessRefused : Prop :=
  ∀ (op : Op) (a b : Shape) (s : State),
    (∀ t, exec (requestOf op a b) s = .next t → t.out.err = 0 →
      a.s = b.s ∧ (shapeOfFmt t.out.rFmt).s = a.s) ∧
    (s.cfg.valid = true → WidthsFit op a b → a.s ≠ b.s →
      exec (requestOf op a b) s = .next { s with out := failed 3 })

/-- R101: MUL needs a doubled-width intermediate of at most 64 bits; the other operations do not. -/
def Obligations.MulWidthLimit : Prop :=
  ∀ (a b : Shape) (s : State), s.cfg.valid = true → legalShape a = true → legalShape b = true → a.s = b.s →
    (64 < 2 * width (promote a b) → exec (.mul a b) s = .next { s with out := failed 2 }) ∧
    (2 * width (promote a b) ≤ 64 → ∃ t, exec (.mul a b) s = .next t ∧ t.out.err = 0) ∧
    (width (promote a b) ≤ 64 →
      (∃ t, exec (.add a b) s = .next t ∧ t.out.err = 0) ∧ (∃ t, exec (.sub a b) s = .next t ∧ t.out.err = 0) ∧
      (operandB b s ≠ 0 → ∃ t, exec (.div a b) s = .next t ∧ t.out.err = 0))

/-! ### Promotion and alignment -/

/-- R60: the promotion rule, the same for the four operations, symmetric, whatever the patterns are. -/
def Obligations.PromotionRule : Prop :=
  (∀ a b : Shape, (promote a b).w.toNat = max a.w.toNat b.w.toNat ∧ (promote a b).f.toNat = max a.f.toNat b.f.toNat ∧
    (promote a b).s = (a.s && b.s) ∧ promote a b = promote b a) ∧
  ∀ (op : Op) (a b : Shape) (s t : State), exec (requestOf op a b) s = .next t → t.out.err = 0 →
    shapeOfFmt t.out.rFmt = promote a b

/-- From R64: alignment scales each operand to the larger fractional width, and keeps the number it means. -/
def Obligations.AlignmentScalesToLargerFraction : Prop :=
  ∀ (a b : Shape) (s : State),
    (max a.f.toNat b.f.toNat - a.f.toNat = 0 ∨ max a.f.toNat b.f.toNat - b.f.toNat = 0) ∧
    alignedA a b s = val a (operandA a s) * 2 ^ (max a.f.toNat b.f.toNat - a.f.toNat) ∧
    alignedB a b s = val b (operandB b s) * 2 ^ (max a.f.toNat b.f.toNat - b.f.toNat) ∧
    realVal a (operandA a s) = (alignedA a b s : ℚ) / 2 ^ (max a.f.toNat b.f.toNat) ∧
    realVal b (operandB b s) = (alignedB a b s : ℚ) / 2 ^ (max a.f.toNat b.f.toNat)

/-- Alignment loses nothing (R65; that nothing is lost the spec marks as derived). -/
def Obligations.AlignmentLosesNothing : Prop :=
  ∀ (a b : Shape) (s : State), legalShape a = true → legalShape b = true → a.s = b.s →
    (minVal (promote a b) ≤ alignedA a b s ∧ alignedA a b s ≤ maxVal (promote a b)) ∧
    (minVal (promote a b) ≤ alignedB a b s ∧ alignedB a b s ≤ maxVal (promote a b)) ∧
    realVal (promote a b) (pat (width (promote a b)) (alignedA a b s)) = realVal a (operandA a s) ∧
    realVal (promote a b) (pat (width (promote a b)) (alignedB a b s)) = realVal b (operandB b s)

/-- From R51, R52 and R66: ADDS and ADDA are ADD with equal shapes, where nothing is shifted and the result shape is the operands'
own. -/
def Obligations.EqualShapeAddShiftsNothing : Prop :=
  ∀ (t : Shape) (s : State),
    assembleAdds t = .add t t ∧ assembleAdda t = .add t t ∧ promote t t = t ∧
    alignedA t t s = val t (operandA t s) ∧ alignedB t t s = val t (operandB t s) ∧
    (s.cfg.valid = true → legalShape t = true → ∃ u, exec (assembleAdds t) s = .next u ∧
      u.out = resultResponse (addPattern s.cfg.sat t (val t (operandA t s)) (val t (operandB t s))) t)

/-! ### Patterns and values -/

/-- R19: a signed pattern is read in two's complement over exactly `W+F` bits, with the range the rule gives; a negative
value is not sign-extended. -/
def Obligations.SignedPatternsAreTwosComplement : Prop :=
  (∀ t : Shape, t.s = true → legalShape t = true →
    (∀ p, p < 2 ^ width t → val t p = (if p.testBit (width t - 1) then (p : Int) - 2 ^ width t else p)) ∧
    (∀ p, p < 2 ^ width t → -2 ^ (width t - 1) ≤ val t p ∧ val t p ≤ 2 ^ (width t - 1) - 1) ∧
    (∀ op a b s u, exec (requestOf op a b) s = .next u → u.out.err = 0 → shapeOfFmt u.out.rFmt = t →
      ∀ i, width t ≤ i → u.out.rRaw.getLsbD i = false)) ∧
  pat (width ⟨4, 4, true⟩) (-1) = 0xFF

/-- Reading and writing a pattern of a legal shape are inverse, and the range is `min_val` to `max_val` (00_scope.md
section 5.2). -/
def Obligations.ReadingInvertsWrapping : Prop :=
  ∀ t : Shape, legalShape t = true →
    (∀ p, p < 2 ^ width t → minVal t ≤ val t p ∧ val t p ≤ maxVal t ∧ pat (width t) (val t p) = p) ∧
    (∀ v : Int, minVal t ≤ v → v ≤ maxVal t → wrap t v = v) ∧
    (∀ v : Int, (2 : Int) ^ width t ∣ wrap t v - v)

/-- From R18 and R31: bit `i` of a pattern has weight `2^(i-F)`, the top bit of a signed one the negative of it. -/
def Obligations.BitWeightsOfPattern : Prop :=
  ∀ (t : Shape) (p : Nat), legalShape t = true → p < 2 ^ width t →
    realVal t p = ((List.range (width t)).map fun i =>
      if p.testBit i then (if t.s = true ∧ i = width t - 1 then -1 else 1) * (2 : ℚ) ^ ((i : Int) - t.f.toNat)
      else 0).sum

/-- R72: the bits of `max_val`, its number, and the saturated bit strings of the source. -/
def Obligations.MaxValPattern : Prop :=
  (∀ t : Shape, legalShape t = true →
    maxVal t = (if t.s then 2 ^ (t.w.toNat + t.f.toNat - 1) - 1 else 2 ^ (t.w.toNat + t.f.toNat) - 1) ∧
    ∀ i, (maxVal t).toNat.testBit i = decide (i < if t.s then width t - 1 else width t)) ∧
  maxVal ⟨1, 0, true⟩ = 0 ∧
  toBitstring ⟨3, 3, false⟩ (maxVal ⟨3, 3, false⟩).toNat = ['1', '1', '1', '.', '1', '1', '1'] ∧
  toBitstring ⟨4, 4, true⟩ (maxVal ⟨4, 4, true⟩).toNat = ['0', '1', '1', '1', '.', '1', '1', '1', '1']

/-- From R6: a number with a meaning in its shape (any in a signed shape, one not negative in an unsigned shape) has a
pattern; in range the pattern reads as the number exactly, above the range it is `max_val` when saturating, and in every
other case it is the number modulo `2^n`, below a signed range under either policy too. A negative number with an
unsigned shape has no pattern (R6, 93_implementation_defined.md U7). The model's choice (log entry 10): the number is
given by the integer `x * 2^F`, the constructor's rounding being outside the unit. -/
def Obligations.ConstructWritesValue : Prop :=
  ∀ (t : Shape) (sat : Bool) (scaled : Int), legalShape t = true →
    (t.s = true ∨ 0 ≤ scaled → ∃ p, construct sat t scaled = some p ∧
      (minVal t ≤ scaled → scaled ≤ maxVal t → realVal t p = (scaled : ℚ) / 2 ^ t.f.toNat) ∧
      (sat = true → maxVal t < scaled → (p : Int) = maxVal t) ∧
      (sat = false ∨ scaled ≤ maxVal t → (p : Int) = scaled % 2 ^ width t)) ∧
    (t.s = false → scaled < 0 → construct sat t scaled = none)

/-- Reading a value (R7; the order of the fraction bits and the exactness the spec marks as derived) gives its whole part, its fraction, and exactly the number it means, signed shapes too. -/
def Obligations.ReadingValueIsExact : Prop :=
  ∀ (t : Shape) (p : Nat), legalShape t = true → p < 2 ^ width t →
    getWhole t p = ⌊realVal t p⌋ ∧
    (getFrac t p : Int) = val t p % 2 ^ t.f.toNat ∧
    fractional t p = (getFrac t p : ℚ) / 2 ^ t.f.toNat ∧
    toReal t p = realVal t p

/-- A bit string (R8; the cases `W = 0` and `F = 0` the spec marks as derived) has `W+F+1` characters, digits but for the point after the `W`-th, and reads back as the
pattern. -/
def Obligations.BitstringRoundTrip : Prop :=
  (∀ (t : Shape) (p : Nat), p < 2 ^ width t →
    (toBitstring t p).length = t.w.toNat + t.f.toNat + 1 ∧
    (toBitstring t p)[t.w.toNat]? = some '.' ∧
    (∀ c ∈ (toBitstring t p).eraseIdx t.w.toNat, c = '0' ∨ c = '1') ∧
    readBits ((toBitstring t p).eraseIdx t.w.toNat) = p ∧
    (t.w = 0 → (toBitstring t p).head? = some '.') ∧ (t.f = 0 → (toBitstring t p).getLast? = some '.')) ∧
  toBitstring ⟨5, 3, false⟩ 0x42 = ['0', '1', '0', '0', '0', '.', '0', '1', '0']

/-- R44: an operand is the low `W+F` bits of its bus, and the response depends on no other bit of it. -/
def Obligations.UpperBusBitsIgnored : Prop :=
  ∀ (op : Op) (a b : Shape) (s : State), legalShape a = true → legalShape b = true →
    (∀ i, (operandA a s).testBit i = (decide (i < width a) && s.port.aRaw.getLsbD i)) ∧
    (∀ i, (operandB b s).testBit i = (decide (i < width b) && s.port.bRaw.getLsbD i)) ∧
    ∀ x y : Bus, (∀ i, i < width a → x.getLsbD i = s.port.aRaw.getLsbD i) →
      (∀ i, i < width b → y.getLsbD i = s.port.bRaw.getLsbD i) →
      ∃ t u, exec (requestOf op a b) s = .next t ∧
        exec (requestOf op a b) { s with port := { s.port with aRaw := x, bRaw := y } } = .next u ∧ u.out = t.out

/-! ### Comparators and clamper -/

/-- What the comparator of ADD amounts to, case by case (R68, which the spec marks as derived from R67 and R65), and what it makes of a saturating signed ADD. -/
def Obligations.AddComparatorByCases : Prop :=
  ∀ (a b : Shape) (s : State), WidthsFit .add a b → a.s = b.s →
    (a.s = false → (ovfAdd (promote a b) (alignedA a b s) (alignedB a b s) = true ↔
      maxVal (promote a b) < alignedA a b s + alignedB a b s)) ∧
    (a.s = true →
      (0 ≤ alignedA a b s → 0 ≤ alignedB a b s → (ovfAdd (promote a b) (alignedA a b s) (alignedB a b s) = true ↔
        maxVal (promote a b) < alignedA a b s + alignedB a b s)) ∧
      (alignedA a b s < 0 → 0 ≤ alignedB a b s → ovfAdd (promote a b) (alignedA a b s) (alignedB a b s) = true) ∧
      (0 ≤ alignedA a b s → alignedB a b s < 0 → ovfAdd (promote a b) (alignedA a b s) (alignedB a b s) = true) ∧
      (alignedA a b s < 0 → alignedB a b s < 0 →
        (ovfAdd (promote a b) (alignedA a b s) (alignedB a b s) = true ↔
          minVal (promote a b) ≤ alignedA a b s + alignedB a b s)) ∧
      (s.cfg = ⟨true, true⟩ → alignedA a b s < 0 ∨ alignedB a b s < 0 →
        exec (.add a b) s = .next (respondsWith s
          (if alignedA a b s + alignedB a b s < minVal (promote a b)
            then ((alignedA a b s + alignedB a b s) % 2 ^ width (promote a b)).toNat
            else (maxVal (promote a b)).toNat) (promote a b))))

/-- What the comparator of MUL amounts to (R70, which the spec marks as derived from R69), and what it makes of a saturating negative product. -/
def Obligations.MulComparatorByCases : Prop :=
  ∀ (a b : Shape) (s : State), WidthsFit .mul a b → a.s = b.s →
    (a.s = false →
      (ovfMul (promote a b) (alignedA a b s) (alignedB a b s) = true ↔
        2 ^ ((promote a b).w.toNat + 2 * (promote a b).f.toNat) ≤ alignedA a b s * alignedB a b s) ∧
      (ovfMul (promote a b) (alignedA a b s) (alignedB a b s) = true ↔
        maxVal (promote a b) < alignedA a b s * alignedB a b s / 2 ^ (promote a b).f.toNat) ∧
      ((promote a b).w = 0 → ovfMul (promote a b) (alignedA a b s) (alignedB a b s) = false)) ∧
    (a.s = true → 0 ≤ alignedA a b s * alignedB a b s →
      (ovfMul (promote a b) (alignedA a b s) (alignedB a b s) = true ↔
        2 ^ ((promote a b).w.toNat + 2 * (promote a b).f.toNat - 1) ≤ alignedA a b s * alignedB a b s) ∧
      (ovfMul (promote a b) (alignedA a b s) (alignedB a b s) = true ↔
        maxVal (promote a b) < alignedA a b s * alignedB a b s / 2 ^ (promote a b).f.toNat)) ∧
    (a.s = true → alignedA a b s * alignedB a b s < 0 →
      ovfMul (promote a b) (alignedA a b s) (alignedB a b s) = true ∧
      (s.cfg = ⟨true, true⟩ → exec (.mul a b) s =
        .next (respondsWith s (maxVal (promote a b)).toNat (promote a b))))

/-- R71: the clamper substitutes `max_val` and nothing else, and only when saturating; SUB and DIV do not pass through
it, their result being the exact result modulo `2^nr` under both policies. -/
def Obligations.ClamperSubstitutesMaxValOnly : Prop :=
  (∀ (sat ovf : Bool) (r : Shape) (w : Nat),
    clamp sat ovf r w = if sat = true ∧ ovf = true then (maxVal r).toNat else w) ∧
  (∀ (a b : Shape) (s t : State), exec (.sub a b) s = .next t → t.out.err = 0 →
    (t.out.rRaw.toNat : Int) = (alignedA a b s - alignedB a b s) % 2 ^ width (promote a b)) ∧
  (∀ (a b : Shape) (s t : State), exec (.div a b) s = .next t → t.out.err = 0 →
    (t.out.rRaw.toNat : Int) =
      roundHaz (alignedA a b s * 2 ^ (promote a b).f.toNat) (alignedB a b s) % 2 ^ width (promote a b))

/-! ### The operations -/

/-- R80: ADD. A bound unit answers a legal request with the exact sum modulo `2^nr`, or `max_val` when it saturates and
the comparator of R67 fires; the checks come first. -/
def Obligations.AddGivesClampedSum : Prop :=
  ∀ (a b : Shape) (s : State),
    (s.cfg.valid = true → WidthsFit .add a b → a.s = b.s →
      exec (.add a b) s = .next (respondsWith s
        (if s.cfg.sat = true ∧
            (wrap (promote a b) (alignedA a b s + alignedB a b s) < alignedA a b s ∨
              wrap (promote a b) (alignedA a b s + alignedB a b s) < alignedB a b s ∨
              maxVal (promote a b) < alignedA a b s + alignedB a b s)
          then (maxVal (promote a b)).toNat
          else ((alignedA a b s + alignedB a b s) % 2 ^ width (promote a b)).toNat) (promote a b))) ∧
    RefusedByChecks .add a b s

/-- R90: SUB. A bound unit answers a legal request with the exact difference A minus B modulo `2^nr`, never clamped; the
checks come first. -/
def Obligations.SubGivesWrappedDifference : Prop :=
  ∀ (a b : Shape) (s : State),
    (s.cfg.valid = true → WidthsFit .sub a b → a.s = b.s →
      exec (.sub a b) s = .next (respondsWith s
        ((alignedA a b s - alignedB a b s) % 2 ^ width (promote a b)).toNat (promote a b))) ∧
    RefusedByChecks .sub a b s

/-- R100: MUL. A bound unit answers a legal request with the product rescaled by a floor division, modulo `2^nr`, or
`max_val` when it saturates and a bit of the intermediate at `k` or above is set, with the sign bit cleared for equal
sign bits of a signed request; the checks come first. -/
def Obligations.MulGivesRescaledProduct : Prop :=
  ∀ (a b : Shape) (s : State),
    (s.cfg.valid = true → WidthsFit .mul a b → a.s = b.s →
      ∃ c : Nat,
        c = (if s.cfg.sat = true ∧ alignedA a b s * alignedB a b s % 2 ^ (2 * width (promote a b)) /
              2 ^ ((promote a b).w.toNat + 2 * (promote a b).f.toNat - (promote a b).s.toNat) ≠ 0
            then (maxVal (promote a b)).toNat
            else (alignedA a b s * alignedB a b s / 2 ^ (promote a b).f.toNat % 2 ^ width (promote a b)).toNat) ∧
        exec (.mul a b) s = .next (respondsWith s
          (if a.s = true ∧ signBit a (operandA a s) = signBit b (operandB b s) ∧ c.testBit (width (promote a b) - 1)
            then c - 2 ^ (width (promote a b) - 1) else c) (promote a b))) ∧
    RefusedByChecks .mul a b s

/-- R110: DIV. A bound unit answers a legal request with a nonzero divisor with the quotient at scale `2^-mf`, rounded
to nearest with ties away from zero, modulo `2^nr`, never clamped; the checks come first. -/
def Obligations.DivGivesRoundedQuotient : Prop :=
  ∀ (a b : Shape) (s : State),
    (s.cfg.valid = true → WidthsFit .div a b → a.s = b.s → operandB b s ≠ 0 →
      exec (.div a b) s = .next (respondsWith s
        (roundHaz (alignedA a b s * 2 ^ (promote a b).f.toNat) (alignedB a b s) %
          2 ^ width (promote a b)).toNat (promote a b))) ∧
    RefusedByChecks .div a b s ∧
    (s.cfg.valid = true → WidthsFit .div a b → a.s = b.s → operandB b s = 0 →
      exec (.div a b) s = .next { s with out := failed 4 })

/-- R111 and R134: division by zero raises `DivideByZero`, whatever the numerator; the zero test is on the low bits of
the bus and the same as the value being zero; no other operation raises it. -/
def Obligations.ZeroDivisorRaisesDivideByZero : Prop :=
  ∀ (a b : Shape) (s : State),
    (operandB b s = 0 ↔ alignedB a b s = 0) ∧ (operandB b s = 0 ↔ realVal b (operandB b s) = 0) ∧
    (operandB b s = 0 ↔ s.port.bRaw.toNat % 2 ^ width b = 0) ∧
    (s.cfg.valid = true → WidthsFit .div a b → a.s = b.s → operandB b s = 0 →
      exec (.div a b) s = .next { s with out := { rspValid := true, rRaw := 0, rFmt := 0, err := 4 } }) ∧
    (∀ op t, exec (requestOf op a b) s = .next t → t.out.err = 4 → op = .div ∧ operandB b s = 0)

/-- The laws of ADD (R81, which the spec marks as derived from R80, R67 and R68), in the numbers the patterns mean. -/
def Obligations.AddLaws : Prop :=
  ∀ (a b : Shape) (s : State), s.cfg.valid = true → WidthsFit .add a b → a.s = b.s →
    ∃ t, exec (.add a b) s = .next t ∧ shapeOfFmt t.out.rFmt = promote a b ∧
      (s.cfg.sat = false →
        (∃ k : Int, realVal (promote a b) t.out.rRaw.toNat =
          realVal a (operandA a s) + realVal b (operandB b s) + k * 2 ^ (promote a b).w.toNat) ∧
        (t.out.rRaw.toNat : Int) = (alignedA a b s + alignedB a b s) % 2 ^ width (promote a b)) ∧
      (s.cfg.sat = true → a.s = false ∨ (0 ≤ alignedA a b s ∧ 0 ≤ alignedB a b s) →
        realVal (promote a b) t.out.rRaw.toNat =
          min (realVal a (operandA a s) + realVal b (operandB b s))
            ((maxVal (promote a b) : ℚ) / 2 ^ (promote a b).f.toNat)) ∧
      (s.cfg.sat = true → a.s = true → alignedA a b s < 0 ∨ alignedB a b s < 0 →
        (t.out.rRaw.toNat : Int) =
          if alignedA a b s < 0 ∧ alignedB a b s < 0 ∧ alignedA a b s + alignedB a b s < minVal (promote a b)
          then alignedA a b s + alignedB a b s + 2 ^ width (promote a b)
          else maxVal (promote a b)) ∧
      (s.cfg.sat = true → a = b → operandA a s = operandB b s → maxVal a < 2 * val a (operandA a s) →
        (t.out.rRaw.toNat : Int) = maxVal a)

/-- The laws of SUB (R91, which the spec marks as derived from R90): the difference modulo `2^mw` under both policies, and SUB followed by ADD of the same operand
B under wrap gives operand A back in the promoted shape. -/
def Obligations.SubLaws : Prop :=
  ∀ (a b : Shape) (s : State), s.cfg.valid = true → WidthsFit .sub a b → a.s = b.s →
    ∃ t, exec (.sub a b) s = .next t ∧ shapeOfFmt t.out.rFmt = promote a b ∧
      (∃ k : Int, realVal (promote a b) t.out.rRaw.toNat =
        realVal a (operandA a s) - realVal b (operandB b s) + k * 2 ^ (promote a b).w.toNat) ∧
      (s.cfg.sat = false → ∃ u,
        exec (.add (shapeOfFmt t.out.rFmt) b) { t with port := { t.port with aRaw := t.out.rRaw } } = .next u ∧
        u.out.err = 0 ∧ shapeOfFmt u.out.rFmt = promote a b ∧
        realVal (promote a b) u.out.rRaw.toNat = realVal a (operandA a s))

/-- The laws of MUL (R102, which the spec marks as derived from R100, R69 and R70). -/
def Obligations.MulLaws : Prop :=
  ∀ (a b : Shape) (s : State), s.cfg.valid = true → WidthsFit .mul a b → a.s = b.s →
    ∃ t, exec (.mul a b) s = .next t ∧ shapeOfFmt t.out.rFmt = promote a b ∧
      (a.s = false → s.cfg.sat = false → (t.out.rRaw.toNat : Int) =
        alignedA a b s * alignedB a b s / 2 ^ (promote a b).f.toNat % 2 ^ width (promote a b)) ∧
      (a.s = false ∨ signBit a (operandA a s) = signBit b (operandB b s) → s.cfg.sat = true →
        (t.out.rRaw.toNat : Int) =
          min (alignedA a b s * alignedB a b s / 2 ^ (promote a b).f.toNat) (maxVal (promote a b))) ∧
      (a.s = true → signBit a (operandA a s) = signBit b (operandB b s) →
        t.out.rRaw.getLsbD (width (promote a b) - 1) = false ∧
        (s.cfg.sat = false → (t.out.rRaw.toNat : Int) =
          alignedA a b s * alignedB a b s / 2 ^ (promote a b).f.toNat % 2 ^ (width (promote a b) - 1))) ∧
      (a.s = true → signBit a (operandA a s) ≠ signBit b (operandB b s) →
        (t.out.rRaw.toNat : Int) =
          if s.cfg.sat = false then
            alignedA a b s * alignedB a b s / 2 ^ (promote a b).f.toNat % 2 ^ width (promote a b)
          else if alignedA a b s * alignedB a b s = 0 then 0
          else maxVal (promote a b)) ∧
      (0 ≤ realVal a (operandA a s) * realVal b (operandB b s) →
        realVal a (operandA a s) * realVal b (operandB b s) ≤
          (maxVal (promote a b) : ℚ) / 2 ^ (promote a b).f.toNat →
        realVal (promote a b) t.out.rRaw.toNat =
          (⌊realVal a (operandA a s) * realVal b (operandB b s) * 2 ^ (promote a b).f.toNat⌋ : ℚ) /
            2 ^ (promote a b).f.toNat)

/-- The laws of DIV (R112, which the spec marks as derived from R110). -/
def Obligations.DivLaws : Prop :=
  ∀ (a b : Shape) (s : State), s.cfg.valid = true → WidthsFit .div a b → a.s = b.s → operandB b s ≠ 0 →
    ∃ t q, exec (.div a b) s = .next t ∧ shapeOfFmt t.out.rFmt = promote a b ∧
      q = roundHaz (alignedA a b s * 2 ^ (promote a b).f.toNat) (alignedB a b s) ∧
      |q * alignedB a b s - alignedA a b s * 2 ^ (promote a b).f.toNat| * 2 ≤ |alignedB a b s| ∧
      (∃ k : Int, realVal (promote a b) t.out.rRaw.toNat =
        (q : ℚ) / 2 ^ (promote a b).f.toNat + k * 2 ^ (promote a b).w.toNat) ∧
      (minVal (promote a b) ≤ q → q ≤ maxVal (promote a b) →
        realVal (promote a b) t.out.rRaw.toNat = (q : ℚ) / 2 ^ (promote a b).f.toNat) ∧
      (operandB b s = 2 ^ b.f.toNat → (if b.s then 2 else 1) ≤ b.w.toNat →
        realVal (promote a b) t.out.rRaw.toNat = realVal a (operandA a s)) ∧
      roundHaz (-(alignedA a b s * 2 ^ (promote a b).f.toNat)) (alignedB a b s) = -q ∧
      roundHaz (alignedA a b s * 2 ^ (promote a b).f.toNat) (-alignedB a b s) = -q ∧
      roundHaz (-(alignedA a b s * 2 ^ (promote a b).f.toNat)) (-alignedB a b s) = q

/-- `round_haz` (00_scope.md section 5.2) is what its row says: a nearest integer to the quotient, the one farther from
zero on a tie. -/
def Obligations.RoundHazIsNearestTiesAway : Prop :=
  ∀ n d : Int, d ≠ 0 →
    (∀ m : Int, |roundHaz n d * d - n| ≤ |m * d - n|) ∧
    (2 * |roundHaz n d * d - n| = |d| → |n| < |roundHaz n d * d|)

/-- ADD and MUL are commutative: with shapes and buses swapped the response is the same, an exception included
(41_add.md, 43_mul.md, corner cases). -/
def Obligations.AddAndMulCommute : Prop :=
  ∀ (op : Op) (a b : Shape) (s : State), op = .add ∨ op = .mul →
    ∃ t u, exec (requestOf op a b) s = .next t ∧
      exec (requestOf op b a) { s with port := { s.port with aRaw := s.port.bRaw, bRaw := s.port.aRaw } } = .next u ∧
      u.out = t.out

/-- R120: CFGW binds the policy on the first write after reset and is ignored afterwards; reset wins over it; a request
of its cycle does not see it; `cfg_sat` is ignored without `cfg_we`. -/
def Obligations.CfgwBindsOnce : Prop :=
  ∀ (s : State) (sat : Bool),
    (s.cfg.valid = false → exec (.cfgw sat) s = .next { s with cfg := ⟨true, sat⟩ }) ∧
    (s.cfg.valid = true → exec (.cfgw sat) s = .next s) ∧
    (s.port.rst = true → ∃ t, step s = .next t ∧ t.cfg.valid = false) ∧
    (∃ t u, step s = .next t ∧ step { s with port := { s.port with cfgWe := false } } = .next u ∧ u.out = t.out) ∧
    (s.port.cfgWe = false → step { s with port := { s.port with cfgSat := sat } } = step s)

/-- R33: a request is atomic and free of side effects: it changes the output ports and nothing else, and presented again
it gives the same response; CFGW changes CFG and nothing else. -/
def Obligations.RequestsHaveNoSideEffects : Prop :=
  (∀ (op : Op) (a b : Shape) (s t : State), exec (requestOf op a b) s = .next t →
    t.cfg = s.cfg ∧ t.port = s.port ∧ t.drive = s.drive ∧ t.freeCount = s.freeCount ∧
    exec (requestOf op a b) t = .next t) ∧
  (∀ (sat : Bool) (s t : State), exec (.cfgw sat) s = .next t →
    t.port = s.port ∧ t.out = s.out ∧ t.drive = s.drive ∧ t.freeCount = s.freeCount)

/-! ### Responses and exceptions -/

/-- R47: a successful response: its pattern is below `2^nr`, its shape code has the layout of the command's shapes, so
that it can be pasted into either position of a later command. -/
def Obligations.SuccessfulResponse : Prop :=
  ∀ (op : Op) (a b : Shape) (s t : State), exec (requestOf op a b) s = .next t → t.out.err = 0 →
    t.out.rspValid = true ∧
    t.out.rRaw.toNat < 2 ^ (max a.w.toNat b.w.toNat + max a.f.toNat b.f.toNat) ∧
    t.out.rFmt.toNat = max a.w.toNat b.w.toNat + max a.f.toNat b.f.toNat * 2 ^ 7 + (a.s && b.s).toNat * 2 ^ 14 ∧
    ∀ (op' : Op) (c : Shape),
      (encodeCmd op' (shapeOfFmt t.out.rFmt) c).extractLsb' 2 15 = t.out.rFmt ∧
      (encodeCmd op' c (shapeOfFmt t.out.rFmt)).extractLsb' 17 15 = t.out.rFmt

/-- R130: the codes a response carries, which request raises which, and zeros beside every code but 0; CFGW raises
nothing. -/
def Obligations.ErrorCodesOfResponses : Prop :=
  (∀ (op : Op) (a b : Shape) (s : State), ∃ t, exec (requestOf op a b) s = .next t ∧ t.out.rspValid = true ∧
    t.out.err.toNat ≤ 4 ∧
    (t.out.err = 1 ↔ s.cfg.valid = false) ∧
    (t.out.err = 2 → ¬WidthsFit op a b) ∧ (t.out.err = 3 → a.s ≠ b.s) ∧
    (t.out.err = 4 → op = .div ∧ operandB b s = 0) ∧
    (t.out.err ≠ 0 → t.out.rRaw = 0 ∧ t.out.rFmt = 0)) ∧
  (∀ (sat : Bool) (s : State), ∃ t, exec (.cfgw sat) s = .next t ∧ t.out = s.out)

/-- R131: an unbound unit answers every request with `NotConfigured`, legal or not, and does no arithmetic. -/
def Obligations.UnboundUnitRefusesEveryRequest : Prop :=
  ∀ s : State, s.cfg.valid = false →
    (∀ (op : Op) (a b : Shape),
      exec (requestOf op a b) s = .next { s with out := { rspValid := true, rRaw := 0, rFmt := 0, err := 1 } }) ∧
    (s.port.reqValid = true → ∃ t, step s = .next t ∧
      t.out = { rspValid := true, rRaw := 0, rFmt := 0, err := 1 })

/-- R135: when several causes apply, the response reports the first in this order. -/
def Obligations.FirstCauseIsReported : Prop :=
  ∀ (op : Op) (a b : Shape) (s : State), ∃ t, exec (requestOf op a b) s = .next t ∧
    t.out.err =
      if s.cfg.valid = false then 1
      else if ¬WidthsFit op a b then 2
      else if a.s ≠ b.s then 3
      else if op = .div ∧ s.port.bRaw.toNat % 2 ^ width b = 0 then 4
      else 0

/-- R136: an exception is a response with its code and zeros; nothing else happens, and its `r_fmt` fed into another
request gives `WidthConfig` there. -/
def Obligations.ExceptionChangesNothingElse : Prop :=
  ∀ (op : Op) (a b : Shape) (s t : State), exec (requestOf op a b) s = .next t → t.out.err ≠ 0 →
    t = { s with out := { rspValid := true, rRaw := 0, rFmt := 0, err := t.out.err } } ∧
    ∀ (op' : Op) (c : Shape), s.cfg.valid = true →
      exec (requestOf op' (shapeOfFmt t.out.rFmt) c) t = .next { t with out := failed 2 } ∧
      exec (requestOf op' c (shapeOfFmt t.out.rFmt)) t = .next { t with out := failed 2 }

/-! ### The cycle -/

/-- A step runs the decoded instruction: a cycle with a request alone is `exec` of the instruction its command word
decodes to, then the next cycle's ports; a cycle with CFGW alone is the idle outputs, `exec` of the CFGW its bit decodes
to, then the next cycle's ports; a cycle with both is the two in that order (R22, R23). The next cycle's ports are the
model's own `drive` (log entry 4). -/
def Obligations.StepRunsDecodedInstruction : Prop :=
  ∀ s : State, s.port.rst = false →
    (∀ i, s.port.reqValid = true → s.port.cfgWe = false → decode 32 s.port.cmd.toNat = .ok i →
      ∃ t, exec i s = .next t ∧ step s = .next (advance t)) ∧
    (∀ i, s.port.reqValid = false → s.port.cfgWe = true → decode 1 s.port.cfgSat.toNat = .ok i →
      ∃ t, exec i { s with out := idleResponse } = .next t ∧ step s = .next (advance t)) ∧
    (∀ i j, s.port.reqValid = true → s.port.cfgWe = true → decode 32 s.port.cmd.toNat = .ok i →
      decode 1 s.port.cfgSat.toNat = .ok j →
      ∃ t u, exec i s = .next t ∧ exec j t = .next u ∧ step s = .next (advance u))

/-- R24: a cycle without a request drives zeros and ignores `cmd`, `a_raw` and `b_raw`. -/
def Obligations.IdleCycleDrivesZeros : Prop :=
  ∀ (s : State) (cmd : Cmd) (x y : Bus), s.port.reqValid = false →
    step { s with port := { s.port with cmd := cmd, aRaw := x, bRaw := y } } = step s ∧
    ∃ t, step s = .next t ∧ t.out = { rspValid := false, rRaw := 0, rFmt := 0, err := 0 }

/-- R46: every request is answered as `Execute` says, with the pseudocode of R46, R80, R90, R100 and R110 written out
over the command word as a number, apart from the machine: the decoder, the checks and the four meanings together are
that one total function. -/
def Obligations.RequestsAnswerAsExecute : Prop :=
  ∀ (s : State) (cmd : Cmd),
    exec (decodeCmd cmd) s = .next { s with out := executeSpec (boundPolicy s.cfg) cmd s.port.aRaw s.port.bRaw }

/-- R22: one step is one clock cycle: its outputs, and CFG after the edge that ends it (`SAT` after a reset is left out,
being free). -/
def Obligations.StepIsOneCycle : Prop :=
  ∀ s : State, ∃ t, step s = .next t ∧
    (s.port.reqValid = false → t.out = { rspValid := false, rRaw := 0, rFmt := 0, err := 0 }) ∧
    (s.port.reqValid = true → t.out.rspValid = true ∧
      t.out = executeSpec (boundPolicy s.cfg) s.port.cmd s.port.aRaw s.port.bRaw) ∧
    (s.port.rst = true → t.cfg.valid = false) ∧
    (s.port.rst = false → s.port.cfgWe = true → s.cfg.valid = false → t.cfg = ⟨true, s.port.cfgSat⟩) ∧
    (s.port.rst = false → s.port.cfgWe = false ∨ s.cfg.valid = true → t.cfg = s.cfg)

/-- From R150 and R16: reset unbinds the unit whatever else the cycle holds, and does not alter the response of its own
cycle. -/
def Obligations.ResetUnbindsAfterItsCycle : Prop :=
  ∀ s : State, s.port.rst = true → ∃ t u, step s = .next t ∧ t.cfg.valid = false ∧
    step { s with port := { s.port with rst := false } } = .next u ∧ t.out = u.out

/-- R152: a request in the cycle of the binding CFGW is answered `NotConfigured`, and one in the next cycle can
succeed. -/
def Obligations.BindingCycleStillRefuses : Prop :=
  ∀ s : State, s.cfg.valid = false → s.port.rst = false → s.port.cfgWe = true → s.port.reqValid = true →
    ∃ t, step s = .next t ∧ t.out = failed 1 ∧ t.cfg = ⟨true, s.port.cfgSat⟩ ∧
      (t.port.reqValid = true → cleanCycle t.port = true →
        ∃ u, step t = .next u ∧ u.out.rspValid = true ∧ u.out.err = 0)

/-- From R35, R161 and R17: a cycle's outputs and the next CFG depend on that cycle's ports and on CFG, on nothing
earlier and nothing later; `SAT` after a reset is left out, being free. -/
def Obligations.OutputsDependOnCycleAlone : Prop :=
  ∀ s t : State, s.cfg = t.cfg → s.port = t.port →
    ∃ s' t', step s = .next s' ∧ step t = .next t' ∧ s'.out = t'.out ∧ s'.cfg.valid = t'.cfg.valid ∧
      (s'.cfg.valid = true → s'.cfg = t'.cfg)

/-- From R16 and R150: after reset the unit is unbound, drives zeros (log entry 6), and answers a request with `NotConfigured`
whatever is on the buses. -/
def Obligations.ResetStateIsUnbound : Prop :=
  State.reset.cfg.valid = false ∧ State.reset.out = { rspValid := false, rRaw := 0, rFmt := 0, err := 0 } ∧
  ∀ (op : Op) (a b : Shape) (x y : Bus), ∃ t, step { State.reset with port := requestLine op a b x y } = .next t ∧
    t.out = failed 1 ∧ t.cfg = State.reset.cfg

/-! ### Whole-machine statements -/

/-- The output ports' invariant holds at reset (R18, R24, R130, R136). -/
def Obligations.ResetMeetsInvariant : Prop := State.reset.Inv

/-- Every instruction and every step keeps the output ports' invariant: zeros without a response, a code that exists
with zeros beside it, else a legal shape and a pattern of it with zeros above its width (R18, R24, R47, R130, R136). -/
def Obligations.EveryStepKeepsInvariant : Prop :=
  (∀ (i : Instr) (s t : State), s.Inv → exec i s = .next t → t.Inv) ∧
  (∀ s t : State, s.Inv → step s = .next t → t.Inv)

/-- R16, R160, U14: what `SAT` holds while the unit is unbound, and the draw counter, can be seen in no cycle of any
run. -/
def Obligations.UnboundSatIsUnobservable : Prop :=
  ∀ (s t : State) (n : Nat), Visible s t →
    ∃ s' t' : State, runCycles n s = .next s' ∧ runCycles n t = .next t' ∧ Visible s' t'

/-- Seen one level up (R23, which the spec marks as derived from R22), a run of cycles is the run of its events, a request before a configuration write or a reset
within a cycle: the policy is what the events make it and each response is `Execute` under the policy its cycle began
with. -/
def Obligations.CyclesRefineEvents : Prop :=
  ∀ (s : State) (n : Nat), ∃ t : State, runCycles (n + 1) s = .next t ∧
    boundPolicy t.cfg = policyAfter s (n + 1) ∧ t.out = responseOf (policyAfter s n) (portAt s n)

/-- From R15: from an unbound state, in any run without reset (the cycles to come are the model's own `drive`, log
entry 4), the unit stays unbound until the first cycle with
`cfg_we`, and from then on holds that cycle's `cfg_sat`. -/
def Obligations.PolicyIsTheFirstWrite : Prop :=
  ∀ (s : State) (n : Nat), s.cfg.valid = false → (∀ k, k < n → (portAt s k).rst = false) →
    ∃ t : State, runCycles n s = .next t ∧
      ((∀ k, k < n → (portAt s k).cfgWe = false) → t.cfg.valid = false) ∧
      (∀ k, k < n → (portAt s k).cfgWe = true → (∀ j, j < k → (portAt s j).cfgWe = false) →
        t.cfg = ⟨true, (portAt s k).cfgSat⟩)

/-- From R142 and R139: in a run (log entry 4) from a bound state without reset whose requests are legal commands and divide by
nothing zero, no response has an error, whatever the operands and the policy. -/
def Obligations.CleanRunHasNoError : Prop :=
  ∀ (s : State) (n : Nat), s.cfg.valid = true →
    (∀ k, k ≤ n → (portAt s k).rst = false ∧ cleanCycle (portAt s k) = true) →
    ∃ t : State, runCycles (n + 1) s = .next t ∧ t.out.rspValid = (portAt s n).reqValid ∧ t.out.err = 0
end

