-- ==== Sys2Proof/Laws/Operands.lean ====
section
/-! SUPPORT. What the operand functions give: widths and signs of the promoted shape, the legality checks in numbers,
the ranges of patterns. -/

namespace Sys2Proof.Machine

theorem promote_w_toNat (a b : Shape) : (promote a b).w.toNat = max a.w.toNat b.w.toNat := by
  simp only [promote, BitVec.le_def]
  split <;> omega

theorem promote_f_toNat (a b : Shape) : (promote a b).f.toNat = max a.f.toNat b.f.toNat := by
  simp only [promote, BitVec.le_def]
  split <;> omega

@[simp] theorem promote_s (a b : Shape) : (promote a b).s = (a.s && b.s) := rfl

theorem width_promote (a b : Shape) :
    width (promote a b) = max a.w.toNat b.w.toNat + max a.f.toNat b.f.toNat := by
  rw [width, promote_w_toNat, promote_f_toNat]

theorem legalShape_iff (t : Shape) :
    legalShape t = true ↔ 1 ≤ t.w.toNat + t.f.toNat ∧ t.w.toNat + t.f.toNat ≤ 64 := by
  simp only [legalShape, Bool.and_eq_true, decide_eq_true_eq]
  rfl

/-- What it takes for a request not to raise `WidthConfig` (R132). -/
theorem widthIllegal_eq_false_iff (op : Op) (a b : Shape) :
    widthIllegal op a b = false ↔
      legalShape a = true ∧ legalShape b = true ∧ width (promote a b) ≤ 64 ∧
        (op = .mul → 2 * width (promote a b) ≤ 64) := by
  have h : Config.maxBits = 64 := rfl
  cases op <;>
    simp only [widthIllegal, Bool.or_eq_false_iff, Bool.not_eq_false', Bool.and_eq_false_iff, decide_eq_false_iff_not] <;>
    simp [h, and_assoc]

theorem pat_lt (n : Nat) (v : Int) : pat n v < 2 ^ n := by
  have h : (0 : Int) < 2 ^ n := by positivity
  have := Int.emod_lt_of_pos v h
  have := Int.emod_nonneg v h.ne'
  unfold pat
  zify
  omega

theorem operand_lt (t : Shape) (bus : Bus) : operand t bus < 2 ^ width t := Nat.mod_lt _ (by positivity)

/-- The operand depends on the bus through its low `W+F` bits alone (R44). -/
theorem operand_congr (t : Shape) (x y : Bus) (h : x.toNat % 2 ^ width t = y.toNat % 2 ^ width t) :
    operand t x = operand t y := h

theorem maxVal_nonneg (t : Shape) : 0 ≤ maxVal t := by
  have h1 : (0 : Int) < 2 ^ width t := by positivity
  have h2 : (0 : Int) < 2 ^ (width t - 1) := by positivity
  unfold maxVal
  split <;> omega

theorem maxVal_toNat_lt (t : Shape) : (maxVal t).toNat < 2 ^ width t := by
  have h1 : (0 : Int) < 2 ^ width t := by positivity
  have h2 : (2 : Int) ^ (width t - 1) ≤ 2 ^ width t := pow_le_pow_right₀ (by norm_num) (Nat.sub_le _ _)
  have h3 := maxVal_nonneg t
  have h4 : maxVal t < 2 ^ width t := by
    unfold maxVal
    split <;> omega
  zify
  omega

end Sys2Proof.Machine
end

