-- ==== Sys2Proof/Laws/Flags.lean ====
section
/-! SUPPORT. The clamper and the sign-bit clear keep a pattern within the result's width. -/

namespace Sys2Proof.Machine

@[simp] theorem clamp_wrap (ovf : Bool) (r : Shape) (w : Nat) : clamp false ovf r w = w := rfl

@[simp] theorem clamp_no_overflow (sat : Bool) (r : Shape) (w : Nat) : clamp sat false r w = w := by
  cases sat <;> rfl

@[simp] theorem clamp_saturate (r : Shape) (w : Nat) : clamp true true r w = (maxVal r).toNat := rfl

theorem clamp_lt (sat ovf : Bool) (r : Shape) (w : Nat) (h : w < 2 ^ width r) : clamp sat ovf r w < 2 ^ width r := by
  unfold clamp
  split
  · exact maxVal_toNat_lt r
  · exact h

/-- Clearing the sign bit of an `n`-bit pattern leaves its low `n-1` bits. -/
theorem clearSign_eq_mod (n c : Nat) (hn : 1 ≤ n) : clearSign n c = c % 2 ^ (n - 1) := by
  have h : 2 ^ n - 1 - 2 ^ (n - 1) = 2 ^ (n - 1) - 1 := by
    obtain ⟨m, rfl⟩ : ∃ m, n = m + 1 := ⟨n - 1, by omega⟩
    simp [pow_succ]
    omega
  rw [clearSign, h, Nat.and_two_pow_sub_one_eq_mod]

theorem clearSign_le (n c : Nat) : clearSign n c ≤ c := Nat.and_le_left

end Sys2Proof.Machine
end

