-- ==== Sys2Proof/Laws/State.lean ====
section
/-! SUPPORT. The small lemmas of the state's updates: one per field per update. -/

namespace Sys2Proof.Machine

@[simp] theorem setOut_cfg (o : Response) (s : State) : (setOut o s).cfg = s.cfg := rfl
@[simp] theorem setOut_port (o : Response) (s : State) : (setOut o s).port = s.port := rfl
@[simp] theorem setOut_out (o : Response) (s : State) : (setOut o s).out = o := rfl
@[simp] theorem setOut_drive (o : Response) (s : State) : (setOut o s).drive = s.drive := rfl
@[simp] theorem setOut_freeCount (o : Response) (s : State) : (setOut o s).freeCount = s.freeCount := rfl

@[simp] theorem respond_cfg (r : Nat) (t : Shape) (s : State) : (respond r t s).cfg = s.cfg := rfl
@[simp] theorem respond_port (r : Nat) (t : Shape) (s : State) : (respond r t s).port = s.port := rfl
@[simp] theorem respond_out (r : Nat) (t : Shape) (s : State) : (respond r t s).out = resultResponse r t := rfl
@[simp] theorem respond_drive (r : Nat) (t : Shape) (s : State) : (respond r t s).drive = s.drive := rfl
@[simp] theorem respond_freeCount (r : Nat) (t : Shape) (s : State) : (respond r t s).freeCount = s.freeCount := rfl

@[simp] theorem raise_cfg (c : Cause) (s : State) : (raise c s).cfg = s.cfg := rfl
@[simp] theorem raise_port (c : Cause) (s : State) : (raise c s).port = s.port := rfl
@[simp] theorem raise_out (c : Cause) (s : State) : (raise c s).out = errorResponse c := rfl
@[simp] theorem raise_drive (c : Cause) (s : State) : (raise c s).drive = s.drive := rfl
@[simp] theorem raise_freeCount (c : Cause) (s : State) : (raise c s).freeCount = s.freeCount := rfl

@[simp] theorem bindPolicy_cfg (b : Bool) (s : State) : (bindPolicy b s).cfg = ⟨true, b⟩ := rfl
@[simp] theorem bindPolicy_port (b : Bool) (s : State) : (bindPolicy b s).port = s.port := rfl
@[simp] theorem bindPolicy_out (b : Bool) (s : State) : (bindPolicy b s).out = s.out := rfl
@[simp] theorem bindPolicy_drive (b : Bool) (s : State) : (bindPolicy b s).drive = s.drive := rfl
@[simp] theorem bindPolicy_freeCount (b : Bool) (s : State) : (bindPolicy b s).freeCount = s.freeCount := rfl

@[simp] theorem clearPolicy_valid (s : State) : (clearPolicy s).cfg.valid = false := rfl
@[simp] theorem clearPolicy_port (s : State) : (clearPolicy s).port = s.port := rfl
@[simp] theorem clearPolicy_out (s : State) : (clearPolicy s).out = s.out := rfl
@[simp] theorem clearPolicy_drive (s : State) : (clearPolicy s).drive = s.drive := rfl
@[simp] theorem clearPolicy_freeCount (s : State) : (clearPolicy s).freeCount = s.freeCount + 1 := rfl

@[simp] theorem advance_cfg (s : State) : (advance s).cfg = s.cfg := by unfold advance; split <;> rfl
@[simp] theorem advance_out (s : State) : (advance s).out = s.out := by unfold advance; split <;> rfl
@[simp] theorem advance_freeCount (s : State) : (advance s).freeCount = s.freeCount := by unfold advance; split <;> rfl
@[simp] theorem advance_port (s : State) : (advance s).port = s.drive.headD idlePorts := by
  unfold advance; split <;> simp_all
@[simp] theorem advance_drive (s : State) : (advance s).drive = s.drive.tail := by
  unfold advance; split <;> simp_all

@[simp] theorem resultResponse_err (r : Nat) (t : Shape) : (resultResponse r t).err = 0 := rfl
@[simp] theorem resultResponse_rspValid (r : Nat) (t : Shape) : (resultResponse r t).rspValid = true := rfl
@[simp] theorem resultResponse_rRaw (r : Nat) (t : Shape) : (resultResponse r t).rRaw = BitVec.ofNat 64 r := rfl
@[simp] theorem resultResponse_rFmt (r : Nat) (t : Shape) : (resultResponse r t).rFmt = fmtOf t := rfl
@[simp] theorem errorResponse_rspValid (c : Cause) : (errorResponse c).rspValid = true := rfl
@[simp] theorem errorResponse_rRaw (c : Cause) : (errorResponse c).rRaw = 0 := rfl
@[simp] theorem errorResponse_rFmt (c : Cause) : (errorResponse c).rFmt = 0 := rfl
@[simp] theorem errorResponse_err (c : Cause) : (errorResponse c).err = causeCode c := rfl

/-- No exception has code 0 (R130). -/
@[simp] theorem causeCode_ne_zero (c : Cause) : causeCode c ≠ 0 := by cases c <;> decide

end Sys2Proof.Machine
end

