-- ==== Sys2Proof/Laws/Ops.lean ====
section
/-! SUPPORT. What the checks of a request and its answer can do, said once. -/

namespace Sys2Proof.Machine

/-- The checks pass exactly when the unit is bound, every shape is legal, the signs agree and a DIV has a nonzero
divisor (R46). -/
theorem requestCause_eq_none_iff (op : Op) (a b : Shape) (s : State) :
    requestCause op a b s = none ↔
      s.cfg.valid = true ∧ widthIllegal op a b = false ∧ a.s = b.s ∧ (op = .div → operandB b s ≠ 0) := by
  unfold requestCause policyBound
  cases hv : s.cfg.valid <;> cases hw : widthIllegal op a b <;> by_cases hs : a.s = b.s <;> cases op <;> simp [hs]

/-- An answered request always gives a next state: the exception the checks find, or the response. -/
theorem answer_cases {op : Op} {a b : Shape} {r : Nat} {s t : State} (h : answer op a b r s = .next t) :
    (∃ c, requestCause op a b s = some c ∧ t = raise c s) ∨
      (requestCause op a b s = none ∧ t = respond r (promote a b) s) := by
  unfold answer at h
  split at h
  · cases h; exact .inl ⟨_, ‹_›, rfl⟩
  · cases h; exact .inr ⟨‹_›, rfl⟩

theorem answer_of_cause {op : Op} {a b : Shape} {s : State} {c : Cause} (r : Nat)
    (h : requestCause op a b s = some c) : answer op a b r s = .next (raise c s) := by
  simp [answer, h]

theorem answer_of_none {op : Op} {a b : Shape} {s : State} (r : Nat) (h : requestCause op a b s = none) :
    answer op a b r s = .next (respond r (promote a b) s) := by
  simp [answer, h]

theorem answer_eq_next (op : Op) (a b : Shape) (r : Nat) (s : State) :
    answer op a b r s = .next
      (setOut ((requestCause op a b s).elim (resultResponse r (promote a b)) errorResponse) s) := by
  unfold answer
  split <;> rename_i h <;> simp [h, raise, respond]

end Sys2Proof.Machine
end

