-- ==== Sys2Proof/Laws/Exec.lean ====
section
/-! SUPPORT. One lemma for the four requests and one for CFGW: what `exec` gives; and that each operation's pattern fits
the result shape. -/

namespace Sys2Proof.Machine

/-- The pattern an operation computes from the state's operands and policy. -/
def requestPattern (op : Op) (a b : Shape) (s : State) : Nat :=
  match op with
  | .add => addPattern (policy s) (promote a b) (alignedA a b s) (alignedB a b s)
  | .sub => subPattern (promote a b) (alignedA a b s) (alignedB a b s)
  | .mul => mulPattern (policy s) (promote a b) (signBit a (operandA a s) == signBit b (operandB b s))
      (alignedA a b s) (alignedB a b s)
  | .div => divPattern (promote a b) (alignedA a b s) (alignedB a b s)

theorem exec_requestOf (op : Op) (a b : Shape) (s : State) :
    exec (requestOf op a b) s = answer op a b (requestPattern op a b s) s := by
  cases op <;> rfl

/-- A request gives the exception its checks find, or its pattern in the promoted shape. -/
theorem exec_request_eq_next (op : Op) (a b : Shape) (s : State) : exec (requestOf op a b) s = .next
    (setOut ((requestCause op a b s).elim (resultResponse (requestPattern op a b s) (promote a b)) errorResponse)
      s) := by
  rw [exec_requestOf, answer_eq_next]

theorem exec_cfgw (sat : Bool) (s : State) :
    exec (.cfgw sat) s = .next (if s.cfg.valid then s else bindPolicy sat s) := by
  show execCfgw sat s = _
  unfold execCfgw policyBound
  split <;> rfl

theorem addPattern_lt (sat : Bool) (r : Shape) (aa ab : Int) : addPattern sat r aa ab < 2 ^ width r :=
  clamp_lt _ _ _ _ (pat_lt _ _)

theorem subPattern_lt (r : Shape) (aa ab : Int) : subPattern r aa ab < 2 ^ width r := pat_lt _ _

theorem mulPattern_lt (sat : Bool) (r : Shape) (same : Bool) (aa ab : Int) :
    mulPattern sat r same aa ab < 2 ^ width r := by
  have h := clamp_lt sat (ovfMul r aa ab) r _ (pat_lt (width r) (aa * ab / 2 ^ r.f.toNat))
  unfold mulPattern
  dsimp only
  split
  · exact (clearSign_le _ _).trans_lt h
  · exact h

theorem divPattern_lt (r : Shape) (aa ab : Int) : divPattern r aa ab < 2 ^ width r := pat_lt _ _

theorem requestPattern_lt (op : Op) (a b : Shape) (s : State) :
    requestPattern op a b s < 2 ^ width (promote a b) := by
  cases op
  · exact addPattern_lt _ _ _ _
  · exact subPattern_lt _ _ _
  · exact mulPattern_lt _ _ _ _ _
  · exact divPattern_lt _ _ _

end Sys2Proof.Machine
end

