-- ==== Sys2Proof/Laws/Cycle.lean ====
section
/-! SUPPORT. What one step does, said once: the response phase, the edge, the next cycle's ports. -/

namespace Sys2Proof.Machine

theorem decodeCmd_eq (cmd : Cmd) :
    decodeCmd cmd = requestOf (opOfBits (cmd.extractLsb' 0 2)) (shapeA cmd) (shapeB cmd) := rfl

/-- The response phase changes the output ports alone. -/
theorem respondPhase_eq (s : State) : ∃ o, respondPhase s = .next (setOut o s) ∧
    (s.port.reqValid = false → o = idleResponse) := by
  unfold respondPhase
  split
  · rw [decodeCmd_eq, exec_requestOf, answer_eq_next]
    exact ⟨_, rfl, by simp_all⟩
  · exact ⟨_, rfl, fun _ => rfl⟩

/-- The response phase of a cycle with a request. -/
theorem respondPhase_request (s : State) (h : s.port.reqValid = true) :
    respondPhase s = exec (decodeCmd s.port.cmd) s := by
  simp [respondPhase, h]

/-- The response phase of a cycle without one (R24). -/
theorem respondPhase_idle (s : State) (h : s.port.reqValid = false) :
    respondPhase s = .next (setOut idleResponse s) := by
  simp [respondPhase, h]

/-- What the edge does (R22). -/
theorem edgePhase_eq (s : State) : edgePhase s = .next
    (if s.port.rst then clearPolicy s
      else if s.port.cfgWe && !s.cfg.valid then bindPolicy s.port.cfgSat s else s) := by
  unfold edgePhase decodeCfg
  rw [exec_cfgw]
  cases s.port.rst <;> cases s.port.cfgWe <;> cases s.cfg.valid <;> rfl

/-- A step is its response phase, its edge and the next cycle's ports, and always gives a next state. -/
theorem step_of_respondPhase {s s1 : State} (h : respondPhase s = .next s1) : step s = .next (advance
    (if s1.port.rst then clearPolicy s1
      else if s1.port.cfgWe && !s1.cfg.valid then bindPolicy s1.port.cfgSat s1 else s1)) := by
  simp [step, cycle, h, andThen, edgePhase_eq]

/-- Everything a step can do: some outputs `o`, those of the response phase, and one of three edges. -/
theorem step_cases (s : State) : ∃ o, respondPhase s = .next (setOut o s) ∧
    ((s.port.rst = true ∧ step s = .next (advance (clearPolicy (setOut o s)))) ∨
      (s.port.rst = false ∧ s.port.cfgWe = true ∧ s.cfg.valid = false ∧
        step s = .next (advance (bindPolicy s.port.cfgSat (setOut o s)))) ∨
      (s.port.rst = false ∧ (s.port.cfgWe = false ∨ s.cfg.valid = true) ∧
        step s = .next (advance (setOut o s)))) := by
  obtain ⟨o, h, _⟩ := respondPhase_eq s
  refine ⟨o, h, ?_⟩
  rw [step_of_respondPhase h]
  cases hr : s.port.rst <;> cases hw : s.port.cfgWe <;> cases hv : s.cfg.valid <;> simp [hr, hw, hv]

end Sys2Proof.Machine
end

