-- ==== Sys2Proof/Laws/PerInstr.lean ====
section
/-! SUPPORT. Statements made per instruction. -/

namespace Sys2Proof.Laws.EncodingFits

/-- An instruction's encoding fits the port it is offered on, and the port is the command port or the configuration
port (R40, R120). -/
def Statement (i : Instr) : Prop :=
  (encode i).word < 2 ^ (encode i).nbits ∧ ((encode i).nbits = 32 ∨ (encode i).nbits = 1)

theorem add (a b : Shape) : Statement (.add a b) := ⟨BitVec.isLt _, .inl rfl⟩

theorem sub (a b : Shape) : Statement (.sub a b) := ⟨BitVec.isLt _, .inl rfl⟩

theorem mul (a b : Shape) : Statement (.mul a b) := ⟨BitVec.isLt _, .inl rfl⟩

theorem div (a b : Shape) : Statement (.div a b) := ⟨BitVec.isLt _, .inl rfl⟩

theorem cfgw (sat : Bool) : Statement (.cfgw sat) := ⟨by cases sat <;> decide, .inr rfl⟩

end Sys2Proof.Laws.EncodingFits
end

