-- ==== Sys2Proof/Laws/Run.lean ====
section
/-! SUPPORT. Runs of cycles: one cycle more, the ports of a later cycle seen from the next state, and the width
conditions as the checks test them. -/

namespace Sys2Proof.Machine

theorem runCycles_succ {s t : State} (n : Nat) (h : step s = .next t) : runCycles (n + 1) s = runCycles n t := by
  rw [runCycles, h]
  rfl

theorem run_succ_of_step (M : Host.Core) (n : Nat) (s t : M.State) (h : M.step s = .next t) :
    M.run (n + 1) s = M.run n t := by
  rw [Host.Core.run, h]

/-- The host's run of the machine is `runCycles`. -/
theorem core_run_eq (n : Nat) : ∀ s : State, Host.Core.run Sys2Proof.core n s = runCycles n s := by
  induction n with
  | zero => intro s; rfl
  | succ n ih =>
    intro s
    obtain ⟨t, ht⟩ : ∃ t, step s = .next t := by
      obtain ⟨o, _, ⟨_, hs⟩ | ⟨_, _, _, hs⟩ | ⟨_, _, hs⟩⟩ := step_cases s <;> exact ⟨_, hs⟩
    exact ((run_succ_of_step Sys2Proof.core n s t ht).trans (ih t)).trans (runCycles_succ n ht).symm

/-- The next state's cycles are this one's, one later. -/
theorem portAt_of_step {s t : State} (h : step s = .next t) (n : Nat) : portAt t n = portAt s (n + 1) := by
  obtain ⟨o, _, hc⟩ := step_cases s
  have key : t.port = s.drive.headD idlePorts ∧ t.drive = s.drive.tail := by
    obtain ⟨_, hs⟩ | ⟨_, _, _, hs⟩ | ⟨_, _, hs⟩ := hc <;> (rw [hs] at h; cases h; simp)
  unfold portAt
  rw [key.1, key.2]
  cases s.drive <;> cases n <;> simp

/-- The checks' width test in the numbers of R132. -/
theorem widthIllegal_eq_false_iff_widthsFit (op : Op) (a b : Shape) :
    widthIllegal op a b = false ↔ WidthsFit op a b := by
  rw [widthIllegal_eq_false_iff, legalShape_iff, legalShape_iff, width_promote]

end Sys2Proof.Machine
end

