-- ==== Sys2Proof/Tests/Slice0.lean ====
section
/-! SUPPORT. Tests: the well-formedness checks, decoding of words written out from the spec's layout, at most two tests
an instruction with results from spec/95_test_vectors.md, and a witness for the hypotheses of every statement. -/

namespace Sys2Proof.Tests

open Sys2Proof.Machine

abbrev u53 : Shape := ⟨5, 3, false⟩
abbrev u44 : Shape := ⟨4, 4, false⟩
abbrev u33 : Shape := ⟨3, 3, false⟩
abbrev s44 : Shape := ⟨4, 4, true⟩
abbrev s53 : Shape := ⟨5, 3, true⟩
abbrev s10 : Shape := ⟨1, 0, true⟩
abbrev u08 : Shape := ⟨0, 8, false⟩
abbrev u80 : Shape := ⟨8, 0, false⟩
abbrev u3232 : Shape := ⟨32, 32, false⟩
abbrev u1616 : Shape := ⟨16, 16, false⟩
abbrev u00 : Shape := ⟨0, 0, false⟩

/-- A bound unit with two patterns on the operand buses. -/
def bound (sat : Bool) (x y : Nat) : State :=
  { State.reset with
    cfg := ⟨true, sat⟩
    port := { idlePorts with aRaw := BitVec.ofNat 64 x, bRaw := BitVec.ofNat 64 y } }

/-- A bound unit with a listing line on its ports. -/
def boundLine (sat : Bool) (p : Ports) : State := { State.reset with cfg := ⟨true, sat⟩, port := p }

/-- An unbound unit with a listing line on its ports. -/
def unboundLine (p : Ports) : State := { State.reset with port := p }

def response : Host.Outcome State Fault Refusal → Option Response
  | .next s => some s.out
  | _ => none

def config : Host.Outcome State Fault Refusal → Option Cfg
  | .next s => some s.cfg
  | _ => none

/-! ### Well-formedness: each check refuses -/

theorem test_wf_accepts : (Instr.add u53 u44).wf = true ∧ (Instr.mul u1616 u1616).wf = true := by decide
theorem test_wf_refuses_empty_a : (Instr.add u00 u44).wf = false := by decide
theorem test_wf_refuses_wide_a : (Instr.add ⟨33, 32, false⟩ u44).wf = false := by decide
theorem test_wf_refuses_empty_b : (Instr.sub u44 u00).wf = false := by decide
theorem test_wf_refuses_wide_b : (Instr.sub u44 ⟨64, 1, false⟩).wf = false := by decide
theorem test_wf_refuses_wide_result : (Instr.add ⟨60, 4, false⟩ ⟨4, 60, false⟩).wf = false := by decide
theorem test_wf_refuses_wide_intermediate : (Instr.mul ⟨17, 16, false⟩ u1616).wf = false := by decide
theorem test_wf_refuses_mixed_sign : (Instr.div s44 u44).wf = false := by decide

/-! ### Decoding: words written out field by field, Bs Bf Bw As Af Aw op (R41) -/

theorem test_decode_add :
    decodeCmd (0b0_0000100_0000100_0_0000011_0000101_00#32) = .add u53 u44 := by decide
theorem test_decode_sub :
    decodeCmd (0b1_0000001_0000010_1_0000011_1000000_01#32) = .sub ⟨64, 3, true⟩ ⟨2, 1, true⟩ := by decide
theorem test_decode_mul :
    decodeCmd (0b1_0000100_0000100_1_0000100_0000100_10#32) = .mul s44 s44 := by decide
theorem test_decode_div :
    decodeCmd (0b0_0000011_0000101_1_0000001_0000010_11#32) = .div ⟨2, 1, true⟩ u53 := by decide
theorem test_decode_cfgw : decodeTableWord 8 1 = some (.cfgw true) ∧ decodeTableWord 1 0 = some (.cfgw false) := by decide
theorem test_decode_rejects_by_name :
    decode 16 0 = .error (.noSuchPort 16) ∧ decode 8 2 = .error (.bitsBeyondPort 8 2) ∧
      decode 32 (2 ^ 32) = .error (.bitsBeyondPort 32 (2 ^ 32)) := ⟨rfl, rfl, rfl⟩
/-- Log entry 7: between 1 bit and one byte no length is accepted. -/
theorem test_decode_cfgw_lengths :
    (∀ n < 10, (decodeTableWord n 1).isSome = (n == 1 || n == 8)) ∧ decode 2 1 = .error (.noSuchPort 2) := by decide
/-- `Value<5,3>(8.25)` is `0x42` (R8), `-1.5` in shape (4,4,s) is `0xE8` (95_test_vectors.md section 2.3), and a negative
number with an unsigned shape is refused (93_implementation_defined.md U7). -/
theorem test_construct :
    construct true u53 66 = some 0x42 ∧ construct true s44 (-24) = some 0xE8 ∧ construct false u53 (-1) = none := by decide
theorem test_chained_line_names_result_shape :
    (requestLineFrom .add ⟨true, 0x14, 0x0185, 0⟩ u44 0x28).cmd = 0x04080614 := by decide
theorem test_encode_mul : encode (.mul s44 s44) = ⟨32, 0x84090812⟩ := by decide

/-! ### The instructions (95_test_vectors.md sections 2.1 to 2.4 and 2.8) -/

theorem test_add_mixed_shapes :
    response (exec (.add u53 u44) (bound true 0xFF 0xFF)) = some ⟨true, 0x1FF, 0x0205, 0⟩ := by decide
theorem test_add_signed_underflow_is_not_clamped :
    response (exec (.add s44 s44) (bound true 0x80 0xFF)) = some ⟨true, 0x7F, 0x4204, 0⟩ ∧
      response (exec (.add s44 s44) (bound true 0x80 0x80)) = some ⟨true, 0, 0x4204, 0⟩ := by decide

theorem test_sub_underflow_wraps :
    response (exec (.sub u44 u53) (bound true 0x28 0x42)) = some ⟨true, 0x1A4, 0x0205, 0⟩ := by decide
theorem test_sub_signed_overflow_wraps :
    response (exec (.sub s44 s44) (bound true 0x70 0xF0)) = some ⟨true, 0x80, 0x4204, 0⟩ := by decide

theorem test_mul_saturates_at_bit_k :
    response (exec (.mul s44 s44) (bound true 0x40 0x20)) = some ⟨true, 0x7F, 0x4204, 0⟩ ∧
      response (exec (.mul s44 s44) (bound false 0x50 0x30)) = some ⟨true, 0x70, 0x4204, 0⟩ := by decide
theorem test_mul_floor_of_negative :
    response (exec (.mul s44 s44) (bound false 0xFF 1)) = some ⟨true, 0xFF, 0x4204, 0⟩ := by decide

theorem test_div_tie_away_from_zero :
    response (exec (.div s44 s44) (bound true 0xFF 0x20)) = some ⟨true, 0xFF, 0x4204, 0⟩ ∧
      response (exec (.div u44 u44) (bound true 3 0x20)) = some ⟨true, 2, 0x0204, 0⟩ := by decide
theorem test_div_by_zero :
    response (exec (.div u44 u44) (bound true 0x10 0xFFFFFFFFFFFFFF00)) = some ⟨true, 0, 0, 4⟩ := by decide

theorem test_cfgw_binds_once :
    config (exec (.cfgw true) State.reset) = some ⟨true, true⟩ ∧
      config (exec (.cfgw true) (bound false 0 0)) = some ⟨true, false⟩ := by decide
theorem test_cfgw_loses_to_reset :
    (config (step (boundLine false { cfgwLine true with rst := true }))).map Cfg.valid = some false := by decide

/-! ### The cycle -/

theorem test_request_does_not_see_its_cycles_write :
    response (step (unboundLine { requestLine .add u53 u53 0xF8 0xF8 with cfgWe := true })) = some ⟨true, 0, 0, 1⟩ ∧
      config (step (unboundLine { requestLine .add u53 u53 0xF8 0xF8 with cfgWe := true })) = some ⟨true, false⟩ := by
  decide
theorem test_idle_cycle : response (step (bound true 5 5)) = some ⟨false, 0, 0, 0⟩ := by decide
theorem test_offered_word_runs :
    response (step ((bound true 0x42 0x28).withFetchWord 32 0x04080614)) = some ⟨true, 0xAC, 0x0205, 0⟩ ∧
      config (step (State.reset.withFetchWord 8 1)) = some ⟨true, true⟩ := by decide

end Sys2Proof.Tests
end

