-- ==== Sys2Proof/Tests/Witnesses.lean ====
section
/-! SUPPORT. For every statement with hypotheses, a concrete state and operands that meet them together, clause by
clause, at a boundary of the clause's range. -/

namespace Sys2Proof.Tests

open Sys2Proof.Machine

/-! ### Encoding -/

theorem witness_EncodeInvertsDecode :
    (∃ i, decode 32 0xFFFFFFFF = .ok i) ∧ (∃ i, decode 32 0 = .ok i) ∧ (∃ i, decode 1 1 = .ok i) :=
  ⟨⟨_, rfl⟩, ⟨_, rfl⟩, ⟨_, rfl⟩⟩

theorem witness_OpFieldSelectsOperation :
    (0x04080614#32).toNat % 4 = 0 ∧ (0x04080615#32).toNat % 4 = 1 ∧ (0x04080616#32).toNat % 4 = 2 ∧
      (0xFFFFFFFF#32).toNat % 4 = 3 := by decide

/-! ### Legality and the checks -/

/-- Both codes: an intermediate one step too wide (`nr = 33`), and operands that differ in sign alone. -/
theorem witness_LegalCommandsAndTheirExceptions :
    ((bound true 0 0).cfg.valid = true ∧ (requestOf .mul ⟨17, 16, false⟩ u1616).wf = false ∧
      ¬WidthsFit .mul ⟨17, 16, false⟩ u1616) ∧
    ((requestOf .add s44 u44).wf = false ∧ WidthsFit .add s44 u44) := by decide

theorem witness_OnlyZeroDivisorFailsLegalCommand :
    ((bound true 1 0).cfg.valid = true ∧ WidthsFit .div u44 u44 ∧ u44.s = u44.s ∧
      (bound true 1 0).port.bRaw.toNat % 2 ^ (u44.w.toNat + u44.f.toNat) = 0) ∧
    ((bound true 1 1).cfg.valid = true ∧ (bound true 1 1).port.bRaw.toNat % 2 ^ (u44.w.toNat + u44.f.toNat) ≠ 0) ∧
    WidthsFit .mul u1616 u1616 := by decide

/-- Both at 64 bits promote to 65. -/
theorem witness_PromotedShapeTooWideRefused :
    legalShape ⟨64, 0, false⟩ = true ∧ legalShape ⟨63, 1, false⟩ = true ∧ (bound true 0 0).cfg.valid = true ∧
      64 < width (promote ⟨64, 0, false⟩ ⟨63, 1, false⟩) := by decide

theorem witness_MixedSignednessRefused :
    (∃ t, exec (requestOf .add s44 s53) (bound true 0 0) = .next t ∧ t.out.err = 0) ∧
    ((bound true 0 0).cfg.valid = true ∧ WidthsFit .add s44 u44 ∧ s44.s ≠ u44.s) :=
  ⟨⟨_, rfl, by decide⟩, by decide⟩

/-- At both sides of the limit: `nr = 33` and `nr = 32`; and `nr = 64` for the others. -/
theorem witness_MulWidthLimit :
    (bound true 1 1).cfg.valid = true ∧
    (legalShape ⟨17, 16, false⟩ = true ∧ legalShape u1616 = true ∧ 64 < 2 * width (promote ⟨17, 16, false⟩ u1616)) ∧
    2 * width (promote u1616 u1616) ≤ 64 ∧
    (legalShape u3232 = true ∧ width (promote u3232 u3232) ≤ 64 ∧ operandB u3232 (bound true 1 1) ≠ 0) := by decide

/-! ### Promotion and alignment -/

theorem witness_PromotionRule :
    ∃ t, exec (requestOf .div u53 u44) (bound false 0x42 0x28) = .next t ∧ t.out.err = 0 := ⟨_, rfl, by decide⟩

theorem witness_AlignmentLosesNothing :
    legalShape u80 = true ∧ legalShape u08 = true ∧ u80.s = u08.s ∧ legalShape s10 = true := by decide

theorem witness_EqualShapeAddShiftsNothing :
    (bound true 0xF8 0xF8).cfg.valid = true ∧ legalShape u53 = true := by decide

/-! ### Patterns and values -/

theorem witness_SignedPatternsAreTwosComplement :
    s10.s = true ∧ legalShape s10 = true ∧ 1 < 2 ^ width s10 ∧
    ∃ u, exec (requestOf .sub s44 s44) (bound false 0x30 0x50) = .next u ∧ u.out.err = 0 ∧
      shapeOfFmt u.out.rFmt = s44 ∧ width s44 ≤ 8 := ⟨rfl, by decide, by decide, _, rfl, by decide⟩

theorem witness_ReadingInvertsWrapping :
    legalShape s44 = true ∧ 0x80 < 2 ^ width s44 ∧ minVal s44 ≤ -128 ∧ (-128 : Int) ≤ maxVal s44 ∧
      (127 : Int) ≤ maxVal s44 := by decide

theorem witness_BitWeightsOfPattern : legalShape s44 = true ∧ 0xFF < 2 ^ width s44 := by decide

theorem witness_MaxValPattern : legalShape s10 = true ∧ legalShape u3232 = true := by decide

/-- In range, above it, and below it in a signed shape at the values where the clauses meet; and a negative number with
an unsigned shape. -/
theorem witness_ConstructWritesValue :
    (legalShape s44 = true ∧ s44.s = true) ∧ (minVal s44 ≤ 127 ∧ (127 : Int) ≤ maxVal s44) ∧ maxVal s44 < 128 ∧
    (minVal s44 ≤ -128 ∧ (-129 : Int) < minVal s44 ∧ (-129 : Int) ≤ maxVal s44) ∧
    (legalShape u53 = true ∧ u53.s = false ∧ (-1 : Int) < 0) := by decide

theorem witness_ReadingValueIsExact : legalShape s44 = true ∧ 0xF1 < 2 ^ width s44 := by decide

theorem witness_BitstringRoundTrip :
    0x42 < 2 ^ width u53 ∧ (0xFF < 2 ^ width u08 ∧ u08.w = 0) ∧ (0xFF < 2 ^ width u80 ∧ u80.f = 0) := by decide

/-- Buses that differ in bit 8, the first above the operands' eight. -/
theorem witness_UpperBusBitsIgnored :
    legalShape u53 = true ∧ legalShape u44 = true ∧
    (∀ i, i < width u53 → (BitVec.ofNat 64 0x142).getLsbD i = (bound true 0x42 0x28).port.aRaw.getLsbD i) ∧
    (∀ i, i < width u44 → (BitVec.ofNat 64 0x128).getLsbD i = (bound true 0x42 0x28).port.bRaw.getLsbD i) :=
  ⟨by decide, by decide, by show ∀ i, i < 8 → _; decide, by show ∀ i, i < 8 → _; decide⟩

/-! ### Comparators and clamper -/

/-- Each clause at the edge of the range: unsigned sum 256; signed sums 127 and 128; one negative addend on either side;
two negative addends summing to -128 and to -129. -/
theorem witness_AddComparatorByCases :
    (WidthsFit .add u53 u53 ∧ u53.s = false ∧
      maxVal u53 < alignedA u53 u53 (bound true 0xFF 1) + alignedB u53 u53 (bound true 0xFF 1)) ∧
    (WidthsFit .add s44 s44 ∧ s44.s = true) ∧
    (0 ≤ alignedA s44 s44 (bound true 0x7F 1) ∧ 0 ≤ alignedB s44 s44 (bound true 0x7F 1)) ∧
    (alignedA s44 s44 (bound true 0xFF 0) < 0 ∧ 0 ≤ alignedB s44 s44 (bound true 0xFF 0)) ∧
    (0 ≤ alignedA s44 s44 (bound true 0 0xFF) ∧ alignedB s44 s44 (bound true 0 0xFF) < 0) ∧
    (alignedA s44 s44 (bound true 0x81 0xFF) < 0 ∧ alignedB s44 s44 (bound true 0x81 0xFF) < 0 ∧
      minVal s44 = alignedA s44 s44 (bound true 0x81 0xFF) + alignedB s44 s44 (bound true 0x81 0xFF)) ∧
    ((bound true 0x80 0xFF).cfg = ⟨true, true⟩ ∧ alignedA s44 s44 (bound true 0x80 0xFF) < 0 ∧
      alignedA s44 s44 (bound true 0x80 0xFF) + alignedB s44 s44 (bound true 0x80 0xFF) < minVal s44) := by decide

/-- Each clause at its edge: the smallest unsigned overflow 2^11, a shape with `mw = 0`, the smallest signed overflow
2^11, a zero product of signed operands, and the product -1. -/
theorem witness_MulComparatorByCases :
    (WidthsFit .mul u53 u53 ∧ u53.s = false ∧
      alignedA u53 u53 (bound true 0x80 0x10) * alignedB u53 u53 (bound true 0x80 0x10) = 2 ^ 11) ∧
    (WidthsFit .mul u08 u08 ∧ (promote u08 u08).w = 0) ∧
    (WidthsFit .mul s44 s44 ∧ s44.s = true ∧
      alignedA s44 s44 (bound true 0x40 0x20) * alignedB s44 s44 (bound true 0x40 0x20) = 2 ^ 11) ∧
    0 ≤ alignedA s44 s44 (bound true 0xF0 0) * alignedB s44 s44 (bound true 0xF0 0) ∧
    (alignedA s44 s44 (bound true 0xFF 1) * alignedB s44 s44 (bound true 0xFF 1) < 0 ∧
      (bound true 0xFF 1).cfg = ⟨true, true⟩) := by decide

theorem witness_ClamperSubstitutesMaxValOnly :
    (∃ t, exec (.sub u53 u53) (bound true 0 1) = .next t ∧ t.out.err = 0) ∧
    ∃ t, exec (.div u44 u44) (bound true 0xF0 1) = .next t ∧ t.out.err = 0 :=
  ⟨⟨_, rfl, by decide⟩, _, rfl, by decide⟩

/-! ### The operations -/

/-- The four clauses of an operation: bound and legal, unbound, a width out of range by one, operands of two signs. -/
theorem witness_AddGivesClampedSum :
    ((bound true 0xFF 1).cfg.valid = true ∧ WidthsFit .add u53 u53 ∧ u53.s = u53.s) ∧
    State.reset.cfg.valid = false ∧ ¬WidthsFit .add ⟨33, 32, false⟩ u44 ∧
    (WidthsFit .add s44 u44 ∧ s44.s ≠ u44.s) := by decide

theorem witness_SubGivesWrappedDifference :
    ((bound true 0 1).cfg.valid = true ∧ WidthsFit .sub u3232 u3232 ∧ u3232.s = u3232.s) ∧
    State.reset.cfg.valid = false ∧ ¬WidthsFit .sub u44 ⟨64, 1, false⟩ ∧
    (WidthsFit .sub u44 s44 ∧ u44.s ≠ s44.s) := by decide

theorem witness_MulGivesRescaledProduct :
    ((bound true 0x80 0x10).cfg.valid = true ∧ WidthsFit .mul u1616 u1616 ∧ u1616.s = u1616.s) ∧
    State.reset.cfg.valid = false ∧ ¬WidthsFit .mul ⟨17, 16, false⟩ u1616 ∧
    (WidthsFit .mul s44 u44 ∧ s44.s ≠ u44.s) := by decide

theorem witness_DivGivesRoundedQuotient :
    ((bound true 0x10 1).cfg.valid = true ∧ WidthsFit .div u44 u44 ∧ u44.s = u44.s ∧
      operandB u44 (bound true 0x10 1) ≠ 0) ∧
    State.reset.cfg.valid = false ∧ ¬WidthsFit .div u00 u44 ∧ (WidthsFit .div s44 u44 ∧ s44.s ≠ u44.s) ∧
    operandB u44 (bound true 0x10 0x100) = 0 := by decide

theorem witness_ZeroDivisorRaisesDivideByZero :
    ((bound true 0x10 0x100).cfg.valid = true ∧ WidthsFit .div u44 u44 ∧ u44.s = u44.s ∧
      operandB u44 (bound true 0x10 0x100) = 0) ∧
    ∃ t, exec (requestOf .div u44 u44) (bound true 0x10 0x100) = .next t ∧ t.out.err = 4 :=
  ⟨by decide, _, rfl, by decide⟩

/-- Wrap; saturate unsigned; saturate signed without a negative addend; with one; with two whose sum is below the range;
and the smallest pattern that added to itself overflows. -/
theorem witness_AddLaws :
    ((bound false 0xFF 1).cfg.valid = true ∧ WidthsFit .add u53 u53 ∧ (bound false 0xFF 1).cfg.sat = false) ∧
    ((bound true 0xFF 1).cfg.sat = true ∧ u53.s = false) ∧
    (WidthsFit .add s44 s44 ∧ s44.s = true ∧ 0 ≤ alignedA s44 s44 (bound true 0x7F 1) ∧
      0 ≤ alignedB s44 s44 (bound true 0x7F 1)) ∧
    alignedA s44 s44 (bound true 0x80 0x7F) < 0 ∧
    (alignedA s44 s44 (bound true 0x80 0xFF) < 0 ∧ alignedB s44 s44 (bound true 0x80 0xFF) < 0 ∧
      alignedA s44 s44 (bound true 0x80 0xFF) + alignedB s44 s44 (bound true 0x80 0xFF) < minVal s44) ∧
    (operandA u53 (bound true 0x80 0x80) = operandB u53 (bound true 0x80 0x80) ∧
      maxVal u53 < 2 * val u53 (operandA u53 (bound true 0x80 0x80))) := by decide

theorem witness_SubLaws :
    (bound false 0x28 0x42).cfg.valid = true ∧ WidthsFit .sub u44 u53 ∧ u44.s = u53.s ∧
      (bound false 0x28 0x42).cfg.sat = false := by decide

/-- Unsigned under both policies, signed with equal and with different sign bits, and a product at the top of the range
of the last law: 31.875 times 1. -/
theorem witness_MulLaws :
    ((bound false 0x80 0x10).cfg.valid = true ∧ WidthsFit .mul u53 u53 ∧ u53.s = false ∧
      (bound false 0x80 0x10).cfg.sat = false) ∧
    (bound true 0x80 0x10).cfg.sat = true ∧
    (WidthsFit .mul s44 s44 ∧ s44.s = true ∧
      signBit s44 (operandA s44 (bound false 0x80 0x80)) = signBit s44 (operandB s44 (bound false 0x80 0x80))) ∧
    signBit s44 (operandA s44 (bound true 0xF0 0)) ≠ signBit s44 (operandB s44 (bound true 0xF0 0)) := by decide

theorem witness_MulLaws_in_range :
    0 ≤ realVal u53 (operandA u53 (bound true 0xFF 8)) * realVal u53 (operandB u53 (bound true 0xFF 8)) ∧
    realVal u53 (operandA u53 (bound true 0xFF 8)) * realVal u53 (operandB u53 (bound true 0xFF 8)) ≤
      (maxVal (promote u53 u53) : ℚ) / 2 ^ (promote u53 u53).f.toNat := by
  have hf : u53.f.toNat = 3 := rfl
  have h1 : realVal u53 (operandA u53 (bound true 0xFF 8)) = 255 / 8 := by
    have : val u53 (operandA u53 (bound true 0xFF 8)) = 255 := by decide
    rw [realVal, this, hf]; norm_num
  have h2 : realVal u53 (operandB u53 (bound true 0xFF 8)) = 1 := by
    have : val u53 (operandB u53 (bound true 0xFF 8)) = 8 := by decide
    rw [realVal, this, hf]; norm_num
  have h3 : maxVal (promote u53 u53) = 255 := by decide
  have h4 : (promote u53 u53).f.toNat = 3 := by decide
  rw [h1, h2, h3, h4]
  norm_num

/-- A nonzero divisor; a quotient at the top of the range; the value 1.0 as operand B in an unsigned and a signed
shape. -/
theorem witness_DivLaws :
    ((bound true 0xFF 0x10).cfg.valid = true ∧ WidthsFit .div u44 u44 ∧ u44.s = u44.s ∧
      operandB u44 (bound true 0xFF 0x10) ≠ 0) ∧
    roundHaz (alignedA u44 u44 (bound true 0xFF 0x10) * 2 ^ (promote u44 u44).f.toNat)
      (alignedB u44 u44 (bound true 0xFF 0x10)) = maxVal (promote u44 u44) ∧
    (operandB u44 (bound true 0xFF 0x10) = 2 ^ u44.f.toNat ∧ (if u44.s then 2 else 1) ≤ u44.w.toNat) ∧
    (operandB s44 (bound true 0xFF 0x10) = 2 ^ s44.f.toNat ∧ (if s44.s then 2 else 1) ≤ s44.w.toNat) := by decide

/-- A nonzero divisor, and a tie: 1 over 2. -/
theorem witness_RoundHazIsNearestTiesAway :
    (2 : Int) ≠ 0 ∧ 2 * |roundHaz 1 2 * 2 - 1| = |(2 : Int)| := by decide

theorem witness_AddAndMulCommute : (Op.add = .add ∨ Op.add = .mul) ∧ (Op.mul = .add ∨ Op.mul = .mul) := by decide

theorem witness_CfgwBindsOnce :
    State.reset.cfg.valid = false ∧ (bound true 0 0).cfg.valid = true ∧ (boundLine true resetLine).port.rst = true ∧
      (bound true 0 0).port.cfgWe = false := by decide

theorem witness_RequestsHaveNoSideEffects :
    (∃ t, exec (requestOf .div u44 u44) (bound true 1 0) = .next t) ∧ ∃ t, exec (.cfgw true) State.reset = .next t :=
  ⟨⟨_, rfl⟩, _, rfl⟩

/-! ### Responses and exceptions -/

/-- A result of the widest shape. -/
theorem witness_SuccessfulResponse :
    ∃ t, exec (requestOf .sub u3232 u3232) (bound true 0 1) = .next t ∧ t.out.err = 0 := ⟨_, rfl, by decide⟩

/-- Codes 2, 3 and 4 are raised. -/
theorem witness_ErrorCodesOfResponses :
    (∃ t, exec (requestOf .add u00 u44) (bound true 0 0) = .next t ∧ t.out.err = 2) ∧
    (∃ t, exec (requestOf .add s44 u44) (bound true 0 0) = .next t ∧ t.out.err = 3) ∧
    (∃ t, exec (requestOf .div u44 u44) (bound true 0 0) = .next t ∧ t.out.err = 4) :=
  ⟨⟨_, rfl, by decide⟩, ⟨_, rfl, by decide⟩, _, rfl, by decide⟩

theorem witness_UnboundUnitRefusesEveryRequest :
    (unboundLine (requestLine .add u53 u44 0x42 0x28)).cfg.valid = false ∧
      (unboundLine (requestLine .add u53 u44 0x42 0x28)).port.reqValid = true := by decide

theorem witness_ExceptionChangesNothingElse :
    (∃ t, exec (requestOf .div u44 u44) (bound true 0 0) = .next t ∧ t.out.err ≠ 0) ∧
      (bound true 0 0).cfg.valid = true := ⟨⟨_, rfl, by decide⟩, rfl⟩

/-! ### The cycle -/

/-- A request alone, a CFGW alone, both. -/
theorem witness_StepRunsDecodedInstruction :
    ((boundLine true (requestLine .add u53 u44 1 1)).port.rst = false ∧
      (boundLine true (requestLine .add u53 u44 1 1)).port.reqValid = true ∧
      (boundLine true (requestLine .add u53 u44 1 1)).port.cfgWe = false ∧
      ∃ i, decode 32 (boundLine true (requestLine .add u53 u44 1 1)).port.cmd.toNat = .ok i) ∧
    ((unboundLine (cfgwLine true)).port.rst = false ∧ (unboundLine (cfgwLine true)).port.reqValid = false ∧
      (unboundLine (cfgwLine true)).port.cfgWe = true ∧
      ∃ i, decode 1 (unboundLine (cfgwLine true)).port.cfgSat.toNat = .ok i) ∧
    ((unboundLine { requestLine .sub u53 u44 1 1 with cfgWe := true }).port.rst = false ∧
      (unboundLine { requestLine .sub u53 u44 1 1 with cfgWe := true }).port.reqValid = true ∧
      (unboundLine { requestLine .sub u53 u44 1 1 with cfgWe := true }).port.cfgWe = true) :=
  ⟨⟨rfl, rfl, rfl, _, rfl⟩, ⟨rfl, rfl, rfl, _, rfl⟩, rfl, rfl, rfl⟩

theorem witness_IdleCycleDrivesZeros : (boundLine true (cfgwLine true)).port.reqValid = false := rfl

/-- No request; a request; reset; a binding write; nothing written; a write on a bound unit. -/
theorem witness_StepIsOneCycle :
    (bound true 0 0).port.reqValid = false ∧ (boundLine true (requestLine .add u53 u44 1 1)).port.reqValid = true ∧
    (boundLine true resetLine).port.rst = true ∧
    ((unboundLine (cfgwLine true)).port.rst = false ∧ (unboundLine (cfgwLine true)).port.cfgWe = true ∧
      (unboundLine (cfgwLine true)).cfg.valid = false) ∧
    ((bound true 0 0).port.rst = false ∧ (bound true 0 0).port.cfgWe = false) ∧
    (boundLine true (cfgwLine false)).cfg.valid = true := by decide

/-- Reset in a cycle that also holds a request and a CFGW. -/
theorem witness_ResetUnbindsAfterItsCycle :
    (boundLine true { requestLine .add u53 u44 1 1 with rst := true, cfgWe := true }).port.rst = true := rfl

/-- A binding cycle with a request, followed by a cycle with a legal request. -/
theorem witness_BindingCycleStillRefuses :
    ∃ s : State, s.cfg.valid = false ∧ s.port.rst = false ∧ s.port.cfgWe = true ∧ s.port.reqValid = true ∧
      ∃ t, step s = .next t ∧ t.port.reqValid = true ∧ cleanCycle t.port = true :=
  ⟨{ unboundLine { requestLine .add u53 u53 0xF8 0xF8 with cfgWe := true } with
      drive := [requestLine .add u53 u53 0xF8 0xF8] }, rfl, rfl, rfl, rfl, _, rfl, by decide⟩

/-- Two states that differ in everything but CFG and the ports. -/
theorem witness_OutputsDependOnCycleAlone :
    ∃ s t : State, s ≠ t ∧ s.cfg = t.cfg ∧ s.port = t.port ∧
      ∃ s', step s = .next s' ∧ s'.cfg.valid = true :=
  ⟨bound true 0 0, { bound true 0 0 with out := ⟨true, 5, 0x0185, 0⟩, drive := [resetLine], freeCount := 3 },
    by decide, rfl, rfl, _, rfl, by decide⟩

/-! ### Whole-machine statements -/

/-- A state that meets the invariant with a result on its ports, which CFGW keeps and a step answers. -/
theorem witness_EveryStepKeepsInvariant :
    ∃ s t u : State, s.out.rspValid = true ∧ s.Inv ∧ exec (.cfgw true) s = .next t ∧ step s = .next u :=
  ⟨{ State.reset with out := ⟨true, 0xFF, 0x0185, 0⟩ }, _, _, rfl,
    by unfold State.Inv Response.Inv; decide, rfl, rfl⟩

/-- Two unbound states that hold different policies and counters. -/
theorem witness_UnboundSatIsUnobservable :
    Visible { State.reset with cfg := ⟨false, true⟩, freeCount := 7 } State.reset :=
  ⟨rfl, by decide, rfl, rfl, rfl⟩

/-- Two cycles: no write in them, and a write in the second. -/
theorem witness_PolicyIsTheFirstWrite :
    (State.reset.cfg.valid = false ∧ (∀ k, k < 2 → (portAt State.reset k).rst = false) ∧
      ∀ k, k < 2 → (portAt State.reset k).cfgWe = false) ∧
    ∃ s : State, s.cfg.valid = false ∧ (∀ k, k < 2 → (portAt s k).rst = false) ∧ (portAt s 1).cfgWe = true ∧
      ∀ j, j < 1 → (portAt s j).cfgWe = false :=
  ⟨by decide, { State.reset with drive := [cfgwLine true] }, by decide⟩

/-- A bound state that divides by one unit, then is given a write that is ignored. -/
theorem witness_CleanRunHasNoError :
    ∃ s : State, s.cfg.valid = true ∧
      ∀ k, k ≤ 1 → (portAt s k).rst = false ∧ cleanCycle (portAt s k) = true :=
  ⟨{ boundLine true (requestLine .div u44 u44 0xF0 1) with drive := [cfgwLine false] }, rfl, by
    intro k hk
    obtain rfl | rfl : k = 0 ∨ k = 1 := by omega
    · decide
    · decide⟩

end Sys2Proof.Tests
end

section
/-! SUPPORT. Bits and patterns as numbers: the shape code, the top bit of a pattern, two's complement (R19, R47). -/

namespace Sys2Proof.Machine

theorem toNat_append_eq_add {m n : Nat} (x : BitVec m) (y : BitVec n) :
    (x ++ y).toNat = x.toNat * 2 ^ n + y.toNat := by
  rw [BitVec.toNat_append, ← Nat.shiftLeft_add_eq_or_of_lt y.isLt, Nat.shiftLeft_eq]

theorem getLsbD_toNat {n : Nat} (v : BitVec n) (i : Nat) : (v.getLsbD i).toNat = v.toNat / 2 ^ i % 2 := by
  rw [BitVec.getLsbD, Nat.testBit_eq_decide_div_mod_eq]
  obtain h | h := Nat.mod_two_eq_zero_or_one (v.toNat / 2 ^ i) <;> simp [h]

theorem bool_toNat_inj (x y : Bool) : x.toNat = y.toNat ↔ x = y := by cases x <;> cases y <;> decide

/-- The shape code of R47 as a number. -/
theorem fmtOf_toNat (t : Shape) : (fmtOf t).toNat = t.w.toNat + t.f.toNat * 2 ^ 7 + t.s.toNat * 2 ^ 14 := by
  simp only [fmtOf, toNat_append_eq_add, BitVec.toNat_ofBool]
  omega

/-- A response's `r_fmt` names the shape it was made from (R47). -/
@[simp] theorem shapeOfFmt_fmtOf (t : Shape) : shapeOfFmt (fmtOf t) = t := by
  obtain ⟨w, f, s⟩ := t
  have hcode := fmtOf_toNat ⟨w, f, s⟩
  have hs := s.toNat_lt
  dsimp only at hcode
  simp only [shapeOfFmt, Shape.mk.injEq]
  refine ⟨BitVec.eq_of_toNat_eq ?_, BitVec.eq_of_toNat_eq ?_, (bool_toNat_inj _ _).1 ?_⟩
  · rw [BitVec.extractLsb'_toNat, Nat.shiftRight_eq_div_pow, hcode]
    omega
  · rw [BitVec.extractLsb'_toNat, Nat.shiftRight_eq_div_pow, hcode]
    omega
  · rw [getLsbD_toNat, hcode]
    omega

theorem pat_cast (n : Nat) (v : Int) : (pat n v : Int) = v % 2 ^ n :=
  Int.toNat_of_nonneg (Int.emod_nonneg _ (by positivity))

theorem testBit_top_iff {n p : Nat} (hp : p < 2 ^ n) : p.testBit (n - 1) = true ↔ 2 ^ (n - 1) ≤ p := by
  cases n with
  | zero =>
    obtain rfl : p = 0 := by omega
    decide
  | succ m =>
    exact ⟨Nat.ge_two_pow_of_testBit, fun h => Nat.testBit_of_two_pow_le_and_two_pow_add_one_gt h hp⟩

/-- The top half of a signed shape's patterns stands `2^n` lower (R19, R46). -/
theorem val_eq_ite (t : Shape) (p : Nat) :
    val t p = if t.s = true ∧ 2 ^ (width t - 1) ≤ p then (p : Int) - 2 ^ width t else p := by
  unfold val
  cases t.s
  · rfl
  · simp only [if_true, true_and, ← not_lt, ite_not]

/-- The top bit of a signed pattern is its sign (R19). -/
theorem val_of_topBit {t : Shape} {p : Nat} (hs : t.s = true) (hp : p < 2 ^ width t) :
    val t p = if p.testBit (width t - 1) then (p : Int) - 2 ^ width t else p := by
  simp only [val_eq_ite, hs, true_and, testBit_top_iff hp]

theorem val_signed_range {t : Shape} {p : Nat} (hs : t.s = true) (ht : legalShape t = true) (hp : p < 2 ^ width t) :
    -2 ^ (width t - 1) ≤ val t p ∧ val t p ≤ 2 ^ (width t - 1) - 1 := by
  have hn : 1 ≤ width t := ((legalShape_iff t).1 ht).1
  have htop : (2 : Int) ^ width t = 2 * 2 ^ (width t - 1) := by rw [← pow_succ', Nat.sub_add_cancel hn]
  zify at hp
  rw [val_eq_ite]
  split_ifs with h
  · have hle : (2 : Int) ^ (width t - 1) ≤ p := by exact_mod_cast h.2
    omega
  · have hlt : (p : Int) < 2 ^ (width t - 1) := by exact_mod_cast not_le.1 fun hle => h ⟨hs, hle⟩
    omega

theorem wrap_eq_ite (t : Shape) (v : Int) : wrap t v =
    if t.s = true ∧ 2 ^ (width t - 1) ≤ v % 2 ^ width t then v % 2 ^ width t - 2 ^ width t else v % 2 ^ width t := by
  rw [wrap, val_eq_ite, ← pat_cast]
  norm_cast

theorem signBit_operand_iff (t : Shape) (bus : Bus) :
    signBit t (operand t bus) = true ↔ t.s = true ∧ 2 ^ (width t - 1) ≤ operand t bus := by
  rw [signBit, Bool.and_eq_true, testBit_top_iff (operand_lt t bus)]

theorem promote_s_toNat (a b : Shape) : (promote a b).s.toNat = a.s.toNat * b.s.toNat := by
  rw [promote_s]
  cases a.s <;> cases b.s <;> rfl

theorem maxVal_eq (t : Shape) : maxVal t = 2 ^ (width t - t.s.toNat) - 1 := by
  unfold maxVal
  cases t.s <;> rfl

end Sys2Proof.Machine
end

section
/-! SUPPORT. The fields of a command word as slices of its number (R41, R42, R43). -/

namespace Sys2Proof.Machine

theorem shapeA_w_toNat (cmd : Cmd) : (shapeA cmd).w.toNat = cmd.toNat / 2 ^ 2 % 128 := by
  rw [shapeA, BitVec.extractLsb'_toNat, Nat.shiftRight_eq_div_pow]

theorem shapeA_f_toNat (cmd : Cmd) : (shapeA cmd).f.toNat = cmd.toNat / 2 ^ 9 % 128 := by
  rw [shapeA, BitVec.extractLsb'_toNat, Nat.shiftRight_eq_div_pow]

theorem shapeA_s_toNat (cmd : Cmd) : (shapeA cmd).s.toNat = cmd.toNat / 2 ^ 16 % 2 := getLsbD_toNat cmd 16

theorem shapeB_w_toNat (cmd : Cmd) : (shapeB cmd).w.toNat = cmd.toNat / 2 ^ 17 % 128 := by
  rw [shapeB, BitVec.extractLsb'_toNat, Nat.shiftRight_eq_div_pow]

theorem shapeB_f_toNat (cmd : Cmd) : (shapeB cmd).f.toNat = cmd.toNat / 2 ^ 24 % 128 := by
  rw [shapeB, BitVec.extractLsb'_toNat, Nat.shiftRight_eq_div_pow]

theorem shapeB_s_toNat (cmd : Cmd) : (shapeB cmd).s.toNat = cmd.toNat / 2 ^ 31 % 2 := getLsbD_toNat cmd 31

/-- The operation a command word selects (R43). -/
def cmdOp (cmd : Cmd) : Op := opOfBits (cmd.extractLsb' 0 2)

theorem decodeCmd_eq_requestOf (cmd : Cmd) : decodeCmd cmd = requestOf (cmdOp cmd) (shapeA cmd) (shapeB cmd) := rfl

theorem bitsOfOp_opOfBits : ∀ v : BitVec 2, bitsOfOp (opOfBits v) = v := by decide

theorem bitsOfOp_cmdOp_toNat (cmd : Cmd) : (bitsOfOp (cmdOp cmd)).toNat = cmd.toNat % 4 := by
  rw [cmdOp, bitsOfOp_opOfBits, BitVec.extractLsb'_toNat, Nat.shiftRight_zero]

/-- The table of R43. -/
theorem bitsOfOp_toNat_eq_iff (op : Op) :
    ((bitsOfOp op).toNat = 0 ↔ op = .add) ∧ ((bitsOfOp op).toNat = 1 ↔ op = .sub) ∧
      ((bitsOfOp op).toNat = 2 ↔ op = .mul) ∧ ((bitsOfOp op).toNat = 3 ↔ op = .div) := by
  cases op <;> decide

end Sys2Proof.Machine
end

section
/-! SUPPORT. The pattern of each operation as the integer the spec's formulas give (R67, R69, R71, R80, R90, R100,
R110). -/

namespace Sys2Proof.Machine

theorem clamp_cast (sat ovf : Bool) (r : Shape) (w : Nat) :
    (clamp sat ovf r w : Int) = if sat = true ∧ ovf = true then maxVal r else w := by
  simp only [clamp, Bool.and_eq_true, apply_ite Nat.cast, Int.toNat_of_nonneg (maxVal_nonneg r)]

theorem clearSign_cast {n c : Nat} (hc : c < 2 ^ n) :
    (clearSign n c : Int) = if 2 ^ (n - 1) ≤ (c : Int) then (c : Int) - 2 ^ (n - 1) else c := by
  cases n with
  | zero =>
    obtain rfl : c = 0 := by omega
    decide
  | succ m =>
    rw [clearSign_eq_mod (m + 1) c (by omega), Nat.add_sub_cancel]
    split_ifs with h
    · have hle : 2 ^ m ≤ c := by exact_mod_cast h
      rw [Nat.mod_eq_sub_mod hle, Nat.mod_eq_of_lt (by omega)]
      push_cast [hle]
      rfl
    · rw [Nat.mod_eq_of_lt (by exact_mod_cast not_le.1 h)]

theorem ovfAdd_iff (r : Shape) (aa ab : Int) : ovfAdd r aa ab = true ↔
    wrap r (aa + ab) < aa ∨ wrap r (aa + ab) < ab ∨ aa + ab > maxVal r := by
  simp [ovfAdd, or_assoc]

theorem ovfMul_iff (r : Shape) (aa ab : Int) : ovfMul r aa ab = true ↔
    aa * ab % 2 ^ (2 * width r) / 2 ^ ovfMulPos r ≠ 0 := by
  rw [ovfMul, bne_iff_ne, Nat.shiftRight_eq_div_pow, ← pat_cast]
  norm_cast

theorem roundHaz_eq_ite (n d : Int) : roundHaz n d =
    if n < 0 ∧ 0 < d ∨ 0 ≤ n ∧ d < 0 then -((2 * |n| + |d|) / (2 * |d|)) else (2 * |n| + |d|) / (2 * |d|) := by
  unfold roundHaz
  push_cast [Int.natCast_natAbs]
  obtain rfl | hd := eq_or_ne d 0
  · simp
  · have hsign : (decide (n < 0) != decide (d < 0)) = true ↔ n < 0 ∧ 0 < d ∨ 0 ≤ n ∧ d < 0 := by
      rw [bne_iff_ne, ne_eq, decide_eq_decide]
      omega
    simp only [hsign, ite_mul, neg_one_mul, one_mul]

theorem addPattern_cast (sat : Bool) (r : Shape) (aa ab : Int) : (addPattern sat r aa ab : Int) =
    if sat = true ∧ (wrap r (aa + ab) < aa ∨ wrap r (aa + ab) < ab ∨ aa + ab > maxVal r) then maxVal r
    else (aa + ab) % 2 ^ width r := by
  simp only [addPattern, clamp_cast, ovfAdd_iff, pat_cast]

theorem subPattern_cast (r : Shape) (aa ab : Int) : (subPattern r aa ab : Int) = (aa - ab) % 2 ^ width r :=
  pat_cast _ _

/-- The rescaled product through the clamper, before the sign-bit clear (R100). -/
def mulClamped (sat : Bool) (r : Shape) (aa ab : Int) : Nat :=
  clamp sat (ovfMul r aa ab) r (pat (width r) (aa * ab / 2 ^ r.f.toNat))

theorem mulPattern_eq (sat : Bool) (r : Shape) (same : Bool) (aa ab : Int) : mulPattern sat r same aa ab =
    if r.s && same then clearSign (width r) (mulClamped sat r aa ab) else mulClamped sat r aa ab := rfl

theorem mulClamped_lt (sat : Bool) (r : Shape) (aa ab : Int) : mulClamped sat r aa ab < 2 ^ width r :=
  clamp_lt _ _ _ _ (pat_lt _ _)

theorem mulClamped_cast (sat : Bool) (r : Shape) (aa ab : Int) : (mulClamped sat r aa ab : Int) =
    if sat = true ∧ aa * ab % 2 ^ (2 * width r) / 2 ^ ovfMulPos r ≠ 0 then maxVal r
    else aa * ab / 2 ^ r.f.toNat % 2 ^ width r := by
  simp only [mulClamped, clamp_cast, ovfMul_iff, pat_cast]

theorem mulPattern_cast (sat : Bool) (r : Shape) (sa sb : Bool) (aa ab : Int) :
    (mulPattern sat r (sa == sb) aa ab : Int) =
      if r.s = true ∧ (sa = true ↔ sb = true) ∧ 2 ^ (width r - 1) ≤ (mulClamped sat r aa ab : Int)
      then (mulClamped sat r aa ab : Int) - 2 ^ (width r - 1) else mulClamped sat r aa ab := by
  have hsame : (sa == sb) = true ↔ (sa = true ↔ sb = true) := by rw [beq_iff_eq, Bool.eq_iff_iff]
  simp only [mulPattern_eq, apply_ite Nat.cast, clearSign_cast (mulClamped_lt sat r aa ab), ← ite_and,
    Bool.and_eq_true, hsame, and_assoc]

theorem divPattern_cast (r : Shape) (aa ab : Int) : (divPattern r aa ab : Int) =
    roundHaz (aa * 2 ^ r.f.toNat) ab % 2 ^ width r :=
  pat_cast _ _

theorem requestPattern_cast (op : Op) (a b : Shape) (s : State) : (requestPattern op a b s : Int) =
    if op = .add then (addPattern (policy s) (promote a b) (alignedA a b s) (alignedB a b s) : Int)
    else if op = .sub then (subPattern (promote a b) (alignedA a b s) (alignedB a b s) : Int)
    else if op = .mul then (mulPattern (policy s) (promote a b)
      (signBit a (operandA a s) == signBit b (operandB b s)) (alignedA a b s) (alignedB a b s) : Int)
    else (divPattern (promote a b) (alignedA a b s) (alignedB a b s) : Int) := by
  cases op <;> rfl

end Sys2Proof.Machine
end

section
/-! SUPPORT. The machine's answer to a request is `Execute` (R46): the checks, the response record, and the two put
together. -/

namespace Sys2Proof.Machine

/-- A request answered with code 0 passed the checks and was given its pattern in the promoted shape (R47). -/
theorem exec_request_result {op : Op} {a b : Shape} {s u : State} (h : exec (requestOf op a b) s = .next u)
    (herr : u.out.err = 0) :
    requestCause op a b s = none ∧ u = respond (requestPattern op a b s) (promote a b) s := by
  rw [exec_requestOf] at h
  obtain ⟨c, -, rfl⟩ | hres := answer_cases h
  · exact absurd herr (causeCode_ne_zero c)
  · exact hres

/-- Above the result's width `r_raw` holds zeros, beside a negative result too (R18, R19). -/
theorem result_bits_above_width {op : Op} {a b : Shape} {s u : State} (h : exec (requestOf op a b) s = .next u)
    (herr : u.out.err = 0) {i : Nat} (hi : width (shapeOfFmt u.out.rFmt) ≤ i) : u.out.rRaw.getLsbD i = false := by
  obtain ⟨-, rfl⟩ := exec_request_result h herr
  have hlt : requestPattern op a b s < 2 ^ i :=
    (requestPattern_lt op a b s).trans_le (Nat.pow_le_pow_right two_pos (by simpa using hi))
  rw [respond_out, resultResponse_rRaw, BitVec.getLsbD_ofNat, Nat.testBit_lt_two_pow hlt, Bool.and_false]

theorem widthIllegal_iff (op : Op) (a b : Shape) : widthIllegal op a b = true ↔
    ¬(1 ≤ width a ∧ width a ≤ 64) ∨ ¬(1 ≤ width b ∧ width b ≤ 64) ∨ width (promote a b) > 64 ∨
      op = .mul ∧ 2 * width (promote a b) > 64 := by
  rw [← Bool.not_eq_false, widthIllegal_eq_false_iff, legalShape_iff, legalShape_iff, ← width, ← width]
  simp only [Classical.not_and_iff_not_or_not, Classical.not_imp, not_le, gt_iff_lt]

/-- The checks in the order and the numbers of `Execute` (R46), on a bound unit. -/
theorem elim_requestCause_of_bound {s : State} (hv : s.cfg.valid = true) (op : Op) (a b : Shape) (res : Response) :
    (requestCause op a b s).elim res errorResponse =
      if ¬(1 ≤ width a ∧ width a ≤ 64) then failed 2
      else if ¬(1 ≤ width b ∧ width b ≤ 64) then failed 2
      else if width (promote a b) > 64 then failed 2
      else if op = .mul ∧ 2 * width (promote a b) > 64 then failed 2
      else if a.s ≠ b.s then failed 3
      else if op = .div ∧ operandB b s = 0 then failed 4
      else res := by
  simp only [requestCause, policyBound, hv, Bool.true_eq_false, if_false, widthIllegal_iff, ite_or, bne_iff_ne,
    Bool.and_eq_true, beq_iff_eq, apply_ite (Option.elim · res errorResponse)]
  rfl

theorem resultResponse_eq (r : Nat) (t : Shape) : resultResponse r t =
    { rspValid := true, rRaw := BitVec.ofInt 64 (r : Int),
      rFmt := BitVec.ofNat 15 (t.w.toNat + t.f.toNat * 2 ^ 7 + t.s.toNat * 2 ^ 14), err := 0 } := by
  rw [resultResponse, BitVec.ofInt_natCast, ← fmtOf_toNat, BitVec.ofNat_toNat, BitVec.setWidth_eq]

/-- On a bound unit, `Execute` is the checks' exception, else the operation's pattern in the promoted shape (R46). -/
theorem executeSpec_of_bound {s : State} (cmd : Cmd) (hv : s.cfg.valid = true) :
    executeSpec (some (policy s)) cmd s.port.aRaw s.port.bRaw =
      (requestCause (cmdOp cmd) (shapeA cmd) (shapeB cmd) s).elim
        (resultResponse (requestPattern (cmdOp cmd) (shapeA cmd) (shapeB cmd) s) (promote (shapeA cmd) (shapeB cmd)))
        errorResponse := by
  -- The right side is written out in the formulas of `Execute`.
  rw [elim_requestCause_of_bound hv, resultResponse_eq, requestPattern_cast, addPattern_cast, subPattern_cast,
    mulPattern_cast, divPattern_cast, roundHaz_eq_ite, mulClamped_cast]
  -- The left side is named from the bottom up: the fields, the promoted shape, the widths, the values, the signs.
  unfold executeSpec
  simp only [← shapeA_w_toNat, ← shapeA_f_toNat, ← shapeA_s_toNat, ← shapeB_w_toNat, ← shapeB_f_toNat,
    ← shapeB_s_toNat, ← bitsOfOp_cmdOp_toNat, -Nat.reducePow]
  generalize shapeA cmd = a
  generalize shapeB cmd = b
  generalize cmdOp cmd = op
  simp only [← promote_w_toNat, ← promote_f_toNat, ← promote_s_toNat]
  simp only [← width.eq_1, ← maxVal_eq, ← ovfMulPos.eq_1, ← operand.eq_1, Bool.toNat_eq_one, bool_toNat_inj,
    bitsOfOp_toNat_eq_iff, ne_eq]
  simp only [← val_eq_ite, ← aligned.eq_1, ← wrap_eq_ite]
  simp only [← signBit_operand_iff]
  rfl

/-- Every command word is answered as `Execute` says under the policy bound, and only the output ports change (R46). -/
theorem exec_decodeCmd (cmd : Cmd) (s : State) : exec (decodeCmd cmd) s =
    .next (setOut (executeSpec (boundPolicy s.cfg) cmd s.port.aRaw s.port.bRaw) s) := by
  rw [decodeCmd_eq_requestOf, exec_request_eq_next]
  cases hv : s.cfg.valid with
  | false =>
    have hnone : boundPolicy s.cfg = none := by simp [boundPolicy, hv]
    have hcause : requestCause (cmdOp cmd) (shapeA cmd) (shapeB cmd) s = some .notConfigured := by
      simp [requestCause, policyBound, hv]
    rw [hnone, hcause]
    rfl
  | true =>
    have hsome : boundPolicy s.cfg = some (policy s) := by simp [boundPolicy, policy, hv]
    rw [hsome, executeSpec_of_bound cmd hv]

theorem executeSpec_rspValid (c : Option Bool) (cmd : Cmd) (x y : Bus) : (executeSpec c cmd x y).rspValid = true := by
  cases c with
  | none => rfl
  | some sat => simp only [executeSpec, apply_ite Response.rspValid, failed, ite_self]

end Sys2Proof.Machine
end

section
/-! SUPPORT. One clock cycle: its outputs, CFG after its edge, and what an idle cycle reads (R22, R24). -/

namespace Sys2Proof.Machine

@[simp] theorem responseOf_idle (c : Option Bool) {p : Ports} (h : p.reqValid = false) :
    responseOf c p = idleResponse := by
  simp [responseOf, h]

@[simp] theorem responseOf_request (c : Option Bool) {p : Ports} (h : p.reqValid = true) :
    responseOf c p = executeSpec c p.cmd p.aRaw p.bRaw := by
  simp [responseOf, h]

/-- The response phase drives the outputs of R22 under the policy the cycle begins with. -/
theorem respondPhase_responseOf (s : State) :
    respondPhase s = .next (setOut (responseOf (boundPolicy s.cfg) s.port) s) := by
  cases h : s.port.reqValid with
  | false => rw [respondPhase_idle s h, responseOf_idle _ h]
  | true => rw [respondPhase_request s h, exec_decodeCmd, responseOf_request _ h]

/-- What `c` may be as CFG after the edge that ends a cycle from `s` (R22, R16, R120); `SAT` after a reset is free. -/
structure EdgeCfg (s : State) (c : Cfg) : Prop where
  reset : s.port.rst = true → c.valid = false
  binds : s.port.rst = false → s.port.cfgWe = true → s.cfg.valid = false → c = ⟨true, s.port.cfgSat⟩
  keeps : s.port.rst = false → s.port.cfgWe = false ∨ s.cfg.valid = true → c = s.cfg

/-- A step drives the outputs of R22 and leaves CFG as the edge makes it. -/
theorem step_eq_next (s : State) : ∃ t, step s = .next t ∧
    t.out = responseOf (boundPolicy s.cfg) s.port ∧ EdgeCfg s t.cfg := by
  obtain ⟨o, ho, hedge⟩ := step_cases s
  have hout : o = responseOf (boundPolicy s.cfg) s.port := by
    rw [respondPhase_responseOf] at ho
    injection ho with ho
    exact (congrArg State.out ho).symm
  subst hout
  obtain ⟨hr, hs⟩ | ⟨hr, hw, hv, hs⟩ | ⟨hr, hk, hs⟩ := hedge
  · exact ⟨_, hs, by simp, fun _ => by simp, by simp [hr], by simp [hr]⟩
  · exact ⟨_, hs, by simp, by simp [hr], fun _ _ _ => by simp, by simp [hw, hv]⟩
  · refine ⟨_, hs, by simp, by simp [hr], fun _ hw hv => ?_, fun _ _ => by simp⟩
    simp [hw, hv] at hk

theorem advance_of_ports (s : State) (p : Ports) : advance { s with port := p } = advance s := by
  unfold advance
  cases s.drive <;> rfl

theorem step_idle (s : State) (h : s.port.reqValid = false) : step s = .next (advance
    (if s.port.rst then clearPolicy (setOut idleResponse s)
      else if s.port.cfgWe && !s.cfg.valid then bindPolicy s.port.cfgSat (setOut idleResponse s)
      else setOut idleResponse s)) :=
  step_of_respondPhase (respondPhase_idle s h)

/-- Of the input ports, an idle cycle depends on `rst`, `cfg_we` and `cfg_sat` alone (R24). -/
theorem step_idle_of_ports (s : State) (p : Ports) (hs : s.port.reqValid = false) (hp : p.reqValid = false)
    (hrst : p.rst = s.port.rst) (hwe : p.cfgWe = s.port.cfgWe) (hsat : p.cfgSat = s.port.cfgSat) :
    step { s with port := p } = step s := by
  rw [step_idle s hs, step_idle { s with port := p } hp]
  dsimp only
  rw [hrst, hwe, hsat]
  congr 1
  split_ifs
  · exact advance_of_ports (clearPolicy (setOut idleResponse s)) p
  · exact advance_of_ports (bindPolicy s.port.cfgSat (setOut idleResponse s)) p
  · exact advance_of_ports (setOut idleResponse s) p

end Sys2Proof.Machine
end

section
/-! The statements about the state and the cycle (10_state.md). -/

namespace Sys2Proof.Machine

/-- Settles O17: the top bit gives the sign and the range, and a result's pattern fits its width, so no bit above it
is set. -/
theorem signedPatternsAreTwosComplement : Obligations.SignedPatternsAreTwosComplement := by
  refine ⟨fun t hs ht => ⟨fun p hp => val_of_topBit hs hp, fun p hp => val_signed_range hs ht hp, ?_⟩, rfl⟩
  rintro op a b s u h herr rfl i hi
  exact result_bits_above_width h herr hi

/-- Settles O47: no edge reads `cmd` or a bus, and the ports are driven anew after it. -/
theorem idleCycleDrivesZeros : Obligations.IdleCycleDrivesZeros := by
  intro s cmd x y h
  obtain ⟨t, hstep, hout, -⟩ := step_eq_next s
  exact ⟨step_idle_of_ports s _ h h rfl rfl rfl, t, hstep, hout.trans (responseOf_idle _ h)⟩

/-- Settles O49: the response phase is `Execute` under the policy of before the edge, and the edge has three cases. -/
theorem stepIsOneCycle : Obligations.StepIsOneCycle := by
  intro s
  obtain ⟨t, hstep, hout, hcfg⟩ := step_eq_next s
  refine ⟨t, hstep, fun h => hout.trans (responseOf_idle _ h), fun h => ?_, hcfg.reset, hcfg.binds, hcfg.keeps⟩
  have hreq := hout.trans (responseOf_request _ h)
  exact ⟨hreq ▸ executeSpec_rspValid _ _ _ _, hreq⟩

end Sys2Proof.Machine
end

section
/-! SUPPORT. A request does not read the output ports, so its own response does not disturb it (R33). -/

namespace Sys2Proof.Machine

@[simp] theorem setOut_setOut (o o' : Response) (s : State) : setOut o (setOut o' s) = setOut o s := rfl

@[simp] theorem requestCause_setOut (op : Op) (a b : Shape) (o : Response) (s : State) :
    requestCause op a b (setOut o s) = requestCause op a b s := rfl

@[simp] theorem requestPattern_setOut (op : Op) (a b : Shape) (o : Response) (s : State) :
    requestPattern op a b (setOut o s) = requestPattern op a b s := by
  cases op <;> rfl

/-- A request's outcome is the same whatever the output ports held before it (R33). -/
@[simp] theorem exec_request_setOut (op : Op) (a b : Shape) (o : Response) (s : State) :
    exec (requestOf op a b) (setOut o s) = exec (requestOf op a b) s := by
  rw [exec_request_eq_next, exec_request_eq_next, requestCause_setOut, requestPattern_setOut, setOut_setOut]

/-- A request writes the output ports alone (R33). -/
theorem exec_request_frame {op : Op} {a b : Shape} {s t : State} (h : exec (requestOf op a b) s = .next t) :
    ∃ o, t = setOut o s := by
  rw [exec_request_eq_next] at h
  injection h with h
  exact ⟨_, h.symm⟩

/-- CFGW does nothing, or binds the policy (R120). -/
theorem exec_cfgw_cases {sat : Bool} {s t : State} (h : exec (.cfgw sat) s = .next t) :
    (s.cfg.valid = true ∧ t = s) ∨ (s.cfg.valid = false ∧ t = bindPolicy sat s) := by
  rw [exec_cfgw] at h
  injection h with h
  cases hv : s.cfg.valid <;> simp [← h, hv]

end Sys2Proof.Machine
end

section
/-! The statements about the frame of a request and of CFGW (20_memory.md). -/

namespace Sys2Proof.Machine

/-- Settles O40: a request writes the output ports and does not read them, and CFGW at most binds the policy. -/
theorem requestsHaveNoSideEffects : Obligations.RequestsHaveNoSideEffects := by
  refine ⟨fun op a b s t h => ?_, fun sat s t h => ?_⟩
  · obtain ⟨o, rfl⟩ := exec_request_frame h
    have hagain : exec (requestOf op a b) (setOut o s) = .next (setOut o s) := (exec_request_setOut op a b o s).trans h
    exact ⟨setOut_cfg o s, setOut_port o s, setOut_drive o s, setOut_freeCount o s, hagain⟩
  · obtain ⟨-, rfl⟩ | ⟨-, rfl⟩ := exec_cfgw_cases h
    · exact ⟨rfl, rfl, rfl, rfl⟩
    · exact ⟨bindPolicy_port sat s, bindPolicy_out sat s, bindPolicy_drive sat s, bindPolicy_freeCount sat s⟩

end Sys2Proof.Machine
end

section
/-! The answer to a request as `Execute` (30_encoding.md R46). -/

namespace Sys2Proof.Machine

/-- Settles O48: the decoder, the checks and the four meanings are `Execute` on the command word's fields, bound or
not. -/
theorem requestsAnswerAsExecute : Obligations.RequestsAnswerAsExecute := fun s cmd => exec_decodeCmd cmd s

end Sys2Proof.Machine
end

section
/-! SUPPORT. The command word as a number, and the shapes' codes as slices of it (R41, R42, R47). -/

namespace Sys2Proof.Machine

/-- The layout of R41 as the encoder writes it. -/
theorem encodeCmd_toNat (op : Op) (a b : Shape) : (encodeCmd op a b).toNat =
    (bitsOfOp op).toNat + a.w.toNat * 2 ^ 2 + a.f.toNat * 2 ^ 9 + a.s.toNat * 2 ^ 16 + b.w.toNat * 2 ^ 17 +
      b.f.toNat * 2 ^ 24 + b.s.toNat * 2 ^ 31 := by
  simp only [encodeCmd, toNat_append_eq_add, BitVec.toNat_ofBool]
  omega

theorem opField_toNat (cmd : Cmd) : (cmd.extractLsb' 0 2).toNat = cmd.toNat % 4 := by
  rw [BitVec.extractLsb'_toNat, Nat.shiftRight_zero]

/-- The top bit of the word needs no mask (R42). -/
theorem shapeB_s_toNat_eq_div (cmd : Cmd) : (shapeB cmd).s.toNat = cmd.toNat / 2 ^ 31 := by
  rw [shapeB_s_toNat]
  omega

/-- Bits 16 to 2 of a command word are the shape code of operand A (R41, R47). -/
theorem encodeCmd_codeA (op : Op) (a b : Shape) : (encodeCmd op a b).extractLsb' 2 15 = fmtOf a := by
  have hs := a.s.toNat_lt
  apply BitVec.eq_of_toNat_eq
  rw [BitVec.extractLsb'_toNat, Nat.shiftRight_eq_div_pow, encodeCmd_toNat, fmtOf_toNat]
  omega

/-- Bits 31 to 17 of a command word are the shape code of operand B (R41, R47). -/
theorem encodeCmd_codeB (op : Op) (a b : Shape) : (encodeCmd op a b).extractLsb' 17 15 = fmtOf b := by
  have ha := a.s.toNat_lt
  have hb := b.s.toNat_lt
  apply BitVec.eq_of_toNat_eq
  rw [BitVec.extractLsb'_toNat, Nat.shiftRight_eq_div_pow, encodeCmd_toNat, fmtOf_toNat]
  omega

end Sys2Proof.Machine
end

section
/-! SUPPORT. Legality and the checks in the numbers of R132, and what of the ports a request reads (R44, R45, R48). -/

namespace Sys2Proof.Machine

theorem requestOf_wf (op : Op) (a b : Shape) : (requestOf op a b).wf = legalRequest op a b := by
  cases op <;> rfl

theorem requestOf_wf_iff (op : Op) (a b : Shape) : (requestOf op a b).wf = true ↔ WidthsFit op a b ∧ a.s = b.s := by
  rw [requestOf_wf, legalRequest, Bool.and_eq_true, Bool.not_eq_true', widthIllegal_eq_false_iff_widthsFit, beq_iff_eq]

theorem widthIllegal_iff_not_widthsFit (op : Op) (a b : Shape) : widthIllegal op a b = true ↔ ¬WidthsFit op a b := by
  rw [← widthIllegal_eq_false_iff_widthsFit, Bool.not_eq_false]

/-- The checks in their order, each condition in numbers (R46, R135). -/
theorem requestCause_eq_ite (op : Op) (a b : Shape) (s : State) : requestCause op a b s =
    if s.cfg.valid = false then some .notConfigured
    else if ¬WidthsFit op a b then some .widthConfig
    else if a.s ≠ b.s then some .mixedSign
    else if op = .div ∧ operandB b s = 0 then some .divideByZero
    else none := by
  simp only [requestCause, policyBound, widthIllegal_iff_not_widthsFit, bne_iff_ne, Bool.and_eq_true, beq_iff_eq]

theorem requestCause_of_not_widthsFit {op : Op} {a b : Shape} {s : State} (hv : s.cfg.valid = true)
    (hw : ¬WidthsFit op a b) : requestCause op a b s = some .widthConfig := by
  rw [requestCause_eq_ite, if_neg (by simp [hv]), if_pos hw]

/-- Past the width check the signs come first, then the zero test of DIV (R133, R134, R135). -/
theorem requestCause_of_widthsFit {op : Op} {a b : Shape} {s : State} (hv : s.cfg.valid = true)
    (hw : WidthsFit op a b) : requestCause op a b s =
      if a.s ≠ b.s then some .mixedSign else if op = .div ∧ operandB b s = 0 then some .divideByZero else none := by
  rw [requestCause_eq_ite, if_neg (by simp [hv]), if_neg (not_not.2 hw)]

theorem exec_request_of_cause {op : Op} {a b : Shape} {s : State} {c : Cause} (h : requestCause op a b s = some c) :
    exec (requestOf op a b) s = .next (raise c s) := by
  rw [exec_requestOf, answer_of_cause _ h]

theorem exec_request_of_none {op : Op} {a b : Shape} {s : State} (h : requestCause op a b s = none) :
    exec (requestOf op a b) s = .next (respond (requestPattern op a b s) (promote a b) s) := by
  rw [exec_requestOf, answer_of_none _ h]

theorem operand_testBit (t : Shape) (bus : Bus) (i : Nat) :
    (operand t bus).testBit i = (decide (i < width t) && bus.getLsbD i) :=
  Nat.testBit_mod_two_pow _ _ _

/-- Buses with the same low `W+F` bits give the same operand (R44). -/
theorem operand_eq_of_low_bits {t : Shape} {x y : Bus} (h : ∀ i, i < width t → x.getLsbD i = y.getLsbD i) :
    operand t x = operand t y := by
  apply Nat.eq_of_testBit_eq
  intro i
  rw [operand_testBit, operand_testBit]
  by_cases hi : i < width t
  · rw [h i hi]
  · simp [hi]

/-- Of the state, the checks read `VALID` and operand B (R46). -/
theorem requestCause_congr (op : Op) {a b : Shape} {s t : State} (hcfg : s.cfg = t.cfg)
    (hB : operandB b s = operandB b t) : requestCause op a b s = requestCause op a b t := by
  rw [requestCause_eq_ite, requestCause_eq_ite, hcfg, hB]

/-- Of the state, the arithmetic reads the policy and the two operands (R44). -/
theorem requestPattern_congr (op : Op) {a b : Shape} {s t : State} (hcfg : s.cfg = t.cfg)
    (hA : operandA a s = operandA a t) (hB : operandB b s = operandB b t) :
    requestPattern op a b s = requestPattern op a b t := by
  cases op <;> simp only [requestPattern, policy, alignedA, alignedB, hcfg, hA, hB]

/-- A request's response depends on CFG and on the two operands alone (R35, R44). -/
theorem exec_request_out_congr (op : Op) {a b : Shape} {s t : State} (hcfg : s.cfg = t.cfg)
    (hA : operandA a s = operandA a t) (hB : operandB b s = operandB b t) :
    ∃ s' t', exec (requestOf op a b) s = .next s' ∧ exec (requestOf op a b) t = .next t' ∧ t'.out = s'.out := by
  refine ⟨_, _, exec_request_eq_next op a b s, exec_request_eq_next op a b t, ?_⟩
  rw [setOut_out, setOut_out, requestCause_congr op hcfg hB, requestPattern_congr op hcfg hA hB]

end Sys2Proof.Machine
end

section
/-! The statements about the command word, legality and responses (30_encoding.md). -/

namespace Sys2Proof.Machine

/-- Settles O3: the encoder's word is the sum of its fields, and the decoder's slices leave no bit out. -/
theorem commandWordAsNumber : Obligations.CommandWordAsNumber := by
  refine ⟨encodeCmd_toNat, fun cmd => ?_⟩
  rw [opField_toNat, shapeA_w_toNat, shapeA_f_toNat, shapeA_s_toNat, shapeB_w_toNat, shapeB_f_toNat,
    shapeB_s_toNat_eq_div]
  omega

/-- Settles O4: each field is the slice of the word's number at its place. -/
theorem decodeReadsFields : Obligations.DecodeReadsFields := fun cmd =>
  ⟨decodeCmd_eq cmd, opField_toNat cmd, shapeA_w_toNat cmd, shapeA_f_toNat cmd, shapeA_s_toNat cmd,
    shapeB_w_toNat cmd, shapeB_f_toNat cmd, shapeB_s_toNat_eq_div cmd,
    congrArg₂ (· + ·) (shapeA_w_toNat cmd) (shapeA_f_toNat cmd),
    congrArg₂ (· + ·) (shapeB_w_toNat cmd) (shapeB_f_toNat cmd)⟩

/-- Settles O8: an illegal command on a bound unit fails the width check or, past it, the sign check. -/
theorem legalCommandsAndTheirExceptions : Obligations.LegalCommandsAndTheirExceptions := by
  refine fun op a b => ⟨requestOf_wf_iff op a b, fun s hv hillegal => ?_⟩
  by_cases hw : WidthsFit op a b
  · have hs : a.s ≠ b.s := fun hs => by simp [(requestOf_wf_iff op a b).2 ⟨hw, hs⟩] at hillegal
    have hcause := requestCause_of_widthsFit hv hw
    rw [if_pos hs] at hcause
    rw [exec_request_of_cause hcause, if_pos hw]
    rfl
  · rw [exec_request_of_cause (requestCause_of_not_widthsFit hv hw), if_neg hw]
    rfl

/-- Settles O9: past the width and sign checks only the zero test of DIV is left. -/
theorem onlyZeroDivisorFailsLegalCommand : Obligations.OnlyZeroDivisorFailsLegalCommand := by
  intro op a b s hv hw hs
  have hcause := requestCause_of_widthsFit hv hw
  rw [if_neg (not_not.2 hs)] at hcause
  by_cases hz : op = .div ∧ operandB b s = 0
  · rw [if_pos hz] at hcause
    exact ⟨_, exec_request_of_cause hcause, (if_pos hz).symm⟩
  · rw [if_neg hz] at hcause
    exact ⟨_, exec_request_of_none hcause, (if_neg hz).symm⟩

/-- Settles O24: the checks and the arithmetic read a bus through its operand alone. -/
theorem upperBusBitsIgnored : Obligations.UpperBusBitsIgnored := by
  refine fun op a b s _ _ => ⟨operand_testBit a _, operand_testBit b _, fun x y hx hy => ?_⟩
  have hA : operandA a s = operand a x := operand_eq_of_low_bits fun i hi => (hx i hi).symm
  have hB : operandB b s = operand b y := operand_eq_of_low_bits fun i hi => (hy i hi).symm
  exact exec_request_out_congr op rfl hA hB

/-- Settles O41: a result is the operation's pattern in the promoted shape, whose code the encoder writes as it
stands. -/
theorem successfulResponse : Obligations.SuccessfulResponse := by
  intro op a b s t h herr
  obtain ⟨-, rfl⟩ := exec_request_result h herr
  rw [respond_out, resultResponse_rspValid, resultResponse_rRaw, resultResponse_rFmt, ← width_promote,
    ← promote_w_toNat, ← promote_f_toNat, ← promote_s, BitVec.toNat_ofNat, shapeOfFmt_fmtOf]
  exact ⟨rfl, (Nat.mod_le _ _).trans_lt (requestPattern_lt op a b s), fmtOf_toNat _,
    fun op' c => ⟨encodeCmd_codeA op' _ c, encodeCmd_codeB op' c _⟩⟩

end Sys2Proof.Machine
end

section
/-! SUPPORT. Promotion is symmetric and never gives an empty shape; what a bound unit answers to widths that do not fit
and to two signs; the result bus as the operation's pattern; the bits of `max_val` (R60, R62, R63, R71, R72). -/

namespace Sys2Proof.Machine

theorem promote_comm (a b : Shape) : promote a b = promote b a := by
  have hw : (promote a b).w = (promote b a).w :=
    BitVec.eq_of_toNat_eq (by rw [promote_w_toNat, promote_w_toNat, max_comm])
  have hf : (promote a b).f = (promote b a).f :=
    BitVec.eq_of_toNat_eq (by rw [promote_f_toNat, promote_f_toNat, max_comm])
  have hs : (promote a b).s = (promote b a).s := Bool.and_comm _ _
  exact (Shape.mk.injEq ..).mpr ⟨hw, hf, hs⟩

/-- A promoted shape is at least as wide as operand A's (R60). -/
theorem width_le_width_promote (a b : Shape) : width a ≤ width (promote a b) := by
  rw [width_promote]
  exact Nat.add_le_add (le_max_left _ _) (le_max_left _ _)

theorem width_promote_le_of_widthsFit {op : Op} {a b : Shape} (h : WidthsFit op a b) : width (promote a b) ≤ 64 := by
  obtain ⟨-, -, hpromoted, -⟩ := h
  rw [width_promote]
  exact hpromoted

/-- R132: widths that do not fit are refused with code 2. -/
theorem exec_request_of_not_widthsFit {op : Op} {a b : Shape} {s : State} (hv : s.cfg.valid = true)
    (hw : ¬WidthsFit op a b) : exec (requestOf op a b) s = .next { s with out := failed 2 } :=
  exec_request_of_cause (requestCause_of_not_widthsFit hv hw)

/-- R133: past the width check, operands of two signs are refused with code 3. -/
theorem exec_request_of_mixedSign {op : Op} {a b : Shape} {s : State} (hv : s.cfg.valid = true)
    (hw : WidthsFit op a b) (hs : a.s ≠ b.s) : exec (requestOf op a b) s = .next { s with out := failed 3 } :=
  exec_request_of_cause ((requestCause_of_widthsFit hv hw).trans (if_pos hs))

/-- A result's `r_raw` is the operation's pattern, none of it lost on the 64-bit bus (R47, R62). -/
theorem result_rRaw_toNat {op : Op} {a b : Shape} {s t : State} (h : exec (requestOf op a b) s = .next t)
    (herr : t.out.err = 0) : t.out.rRaw.toNat = requestPattern op a b s := by
  obtain ⟨hcause, rfl⟩ := exec_request_result h herr
  obtain ⟨-, hwidth, -⟩ := (requestCause_eq_none_iff op a b s).1 hcause
  have hfit : width (promote a b) ≤ 64 :=
    width_promote_le_of_widthsFit ((widthIllegal_eq_false_iff_widthsFit op a b).1 hwidth)
  rw [respond_out, resultResponse_rRaw, BitVec.toNat_ofNat]
  exact Nat.mod_eq_of_lt ((requestPattern_lt op a b s).trans_le (Nat.pow_le_pow_right two_pos hfit))

/-- A result is in the promoted shape, whatever the operation (R60). -/
theorem result_shape {op : Op} {a b : Shape} {s t : State} (h : exec (requestOf op a b) s = .next t)
    (herr : t.out.err = 0) : shapeOfFmt t.out.rFmt = promote a b := by
  obtain ⟨-, rfl⟩ := exec_request_result h herr
  exact shapeOfFmt_fmtOf _

/-- A result is of operands of one sign (R63). -/
theorem result_sign_eq {op : Op} {a b : Shape} {s t : State} (h : exec (requestOf op a b) s = .next t)
    (herr : t.out.err = 0) : a.s = b.s := by
  obtain ⟨hcause, -⟩ := exec_request_result h herr
  obtain ⟨-, -, hsign, -⟩ := (requestCause_eq_none_iff op a b s).1 hcause
  exact hsign

theorem maxVal_toNat (t : Shape) : (maxVal t).toNat = 2 ^ (width t - t.s.toNat) - 1 := by
  have hpos : 1 ≤ 2 ^ (width t - t.s.toNat) := Nat.one_le_two_pow
  zify [hpos]
  rw [Int.toNat_of_nonneg (maxVal_nonneg t), maxVal_eq]

/-- `max_val` has a one in every place below the sign bit, or in every place when there is none (R72). -/
theorem maxVal_testBit (t : Shape) (i : Nat) :
    (maxVal t).toNat.testBit i = decide (i < width t - t.s.toNat) := by
  rw [maxVal_toNat, Nat.testBit_two_pow_sub_one]

end Sys2Proof.Machine
end

section
/-! The statements about promotion, the clamper and `max_val` (40_promotion_saturation.md). -/

namespace Sys2Proof.Machine

/-- Settles O10: the promoted shape is no narrower than operand A's, and its width is one of the widths checked. -/
theorem promotedShapeTooWideRefused : Obligations.PromotedShapeTooWideRefused := by
  intro op a b s ha _
  have hwa : 1 ≤ width a := ((legalShape_iff a).1 ha).1
  refine ⟨hwa.trans (width_le_width_promote a b), fun hv hwide => ?_⟩
  exact exec_request_of_not_widthsFit hv fun hfit => hwide.not_ge (width_promote_le_of_widthsFit hfit)

/-- Settles O11: a result passed the sign check, and the AND of two equal signs is that sign. -/
theorem mixedSignednessRefused : Obligations.MixedSignednessRefused := by
  refine fun op a b s => ⟨fun t h herr => ?_, exec_request_of_mixedSign⟩
  have hsign : a.s = b.s := result_sign_eq h herr
  refine ⟨hsign, ?_⟩
  rw [result_shape h herr, promote_s, ← hsign, Bool.and_self]

/-- Settles O13: one rule on the two shapes, and every operation's result names the shape it gives. -/
theorem promotionRule : Obligations.PromotionRule :=
  ⟨fun a b => ⟨promote_w_toNat a b, promote_f_toNat a b, promote_s a b, promote_comm a b⟩,
    fun _ _ _ _ _ h herr => result_shape h herr⟩

/-- Settles O20: `max_val` is one less than a power of two, so it is ones up to the sign bit. -/
theorem maxValPattern : Obligations.MaxValPattern := by
  refine ⟨fun t _ => ⟨rfl, fun i => ?_⟩, by decide, by decide, by decide⟩
  rw [maxVal_testBit]
  cases t.s <;> rfl

/-- Settles O27: the clamper has two outcomes, and the patterns of SUB and DIV are remainders modulo `2^nr` under
either policy. -/
theorem clamperSubstitutesMaxValOnly : Obligations.ClamperSubstitutesMaxValOnly := by
  refine ⟨fun sat ovf r w => ?clamper, fun a b s t h herr => ?sub, fun a b s t h herr => ?div⟩
  case clamper => simp only [clamp, Bool.and_eq_true]
  case sub =>
    rw [result_rRaw_toNat (op := .sub) h herr]
    exact subPattern_cast _ _ _
  case div =>
    rw [result_rRaw_toNat (op := .div) h herr]
    exact divPattern_cast _ _ _

end Sys2Proof.Machine
end

section
/-! SUPPORT. The checks of a request put together, a legal request's result, and ADD's pattern as a natural number (R46,
R47, R80, R135). -/

namespace Sys2Proof.Machine

/-- R131: an unbound unit refuses every request with code 1. -/
theorem exec_request_of_unbound {s : State} (hv : s.cfg.valid = false) (op : Op) (a b : Shape) :
    exec (requestOf op a b) s = .next { s with out := failed 1 } := by
  have hcause : requestCause op a b s = some .notConfigured := by rw [requestCause_eq_ite, if_pos hv]
  exact exec_request_of_cause hcause

/-- Whatever the operation, the checks come before any arithmetic, in the order of R135. -/
theorem refusedByChecks (op : Op) (a b : Shape) (s : State) : RefusedByChecks op a b s :=
  ⟨fun hv => exec_request_of_unbound hv op a b, exec_request_of_not_widthsFit, exec_request_of_mixedSign⟩

/-- A bound unit answers a legal request, other than a DIV by zero, with the operation's pattern in the promoted shape
(R46, R47). -/
theorem exec_request_of_legal {op : Op} {a b : Shape} {s : State} (hv : s.cfg.valid = true) (hw : WidthsFit op a b)
    (hs : a.s = b.s) (hz : op = .div → operandB b s ≠ 0) : exec (requestOf op a b) s =
      .next (respondsWith s (requestPattern op a b s) (promote a b)) := by
  have hcause : requestCause op a b s = none :=
    (requestCause_eq_none_iff op a b s).2 ⟨hv, (widthIllegal_eq_false_iff_widthsFit op a b).2 hw, hs, hz⟩
  exact exec_request_of_none hcause

/-- The exact sum modulo `2^nr`, or `max_val` when the policy saturates and the comparator of R67 fires (R80). -/
theorem addPattern_eq_ite (sat : Bool) (r : Shape) (aa ab : Int) : addPattern sat r aa ab =
    if sat = true ∧ (wrap r (aa + ab) < aa ∨ wrap r (aa + ab) < ab ∨ maxVal r < aa + ab) then (maxVal r).toNat
    else ((aa + ab) % 2 ^ width r).toNat := by
  have hcast := congrArg Int.toNat (addPattern_cast sat r aa ab)
  rwa [Int.toNat_natCast, apply_ite Int.toNat] at hcast

end Sys2Proof.Machine
end

section
/-! The statement about ADD (41_add.md). -/

namespace Sys2Proof.Machine

/-- Settles O28: a legal ADD is answered with its pattern, which is the sum through the clamper, and the checks are those
of every request. -/
theorem addGivesClampedSum : Obligations.AddGivesClampedSum := by
  refine fun a b s => ⟨fun hv hw hs => ?_, refusedByChecks .add a b s⟩
  have hanswer : exec (.add a b) s = .next (respondsWith s (requestPattern .add a b s) (promote a b)) :=
    exec_request_of_legal (op := .add) hv hw hs (by simp)
  rw [hanswer, requestPattern, addPattern_eq_ite, policy]

end Sys2Proof.Machine
end

section
/-! The statement about SUB (42_sub.md). -/

namespace Sys2Proof.Machine

/-- The exact difference modulo `2^nr` as a natural number, no clamper in between (R90). -/
theorem subPattern_eq_toNat_emod (r : Shape) (aa ab : Int) :
    subPattern r aa ab = ((aa - ab) % 2 ^ width r).toNat := rfl

/-- Settles O29: a legal SUB is answered with its pattern, which is the difference modulo `2^nr` under either policy, and
the checks are those of every request. -/
theorem subGivesWrappedDifference : Obligations.SubGivesWrappedDifference := by
  refine fun a b s => ⟨fun hv hw hs => ?_, refusedByChecks .sub a b s⟩
  have hanswer : exec (.sub a b) s = .next (respondsWith s (requestPattern .sub a b s) (promote a b)) :=
    exec_request_of_legal (op := .sub) hv hw hs (by simp)
  rw [hanswer, requestPattern, subPattern_eq_toNat_emod]

end Sys2Proof.Machine
end

section
/-! SUPPORT. The widths that fit in terms of the promoted shape, a legal request's code, and MUL's pattern as a natural
number (R69, R100, R101, R132). -/

namespace Sys2Proof.Machine

/-- The widths fit when every shape a request names or builds is at most 64 bits wide, the doubled one of MUL too
(R101, R132). -/
theorem widthsFit_iff_legalShape (op : Op) (a b : Shape) : WidthsFit op a b ↔
    legalShape a = true ∧ legalShape b = true ∧ width (promote a b) ≤ 64 ∧
      (op = .mul → 2 * width (promote a b) ≤ 64) := by
  rw [← widthIllegal_eq_false_iff_widthsFit, widthIllegal_eq_false_iff]

/-- A bound unit gives a legal request, other than a DIV by zero, code 0 (R48). -/
theorem exec_request_err_zero_of_legal {op : Op} {a b : Shape} {s : State} (hv : s.cfg.valid = true)
    (hw : WidthsFit op a b) (hs : a.s = b.s) (hz : op = .div → operandB b s ≠ 0) :
    ∃ t, exec (requestOf op a b) s = .next t ∧ t.out.err = 0 :=
  ⟨_, exec_request_of_legal hv hw hs hz, rfl⟩

/-- The sign-bit clear takes the sign bit's weight off a pattern that has it set (R100). -/
theorem clearSign_eq_ite {n c : Nat} (hc : c < 2 ^ n) :
    clearSign n c = if c.testBit (n - 1) then c - 2 ^ (n - 1) else c := by
  have hcast := clearSign_cast hc
  simp only [testBit_top_iff hc]
  split_ifs at hcast ⊢ with hint hnat hnat
  · zify [hnat]
    exact hcast
  · exact absurd (by exact_mod_cast hint) hnat
  · exact absurd (by exact_mod_cast hnat) hint
  · exact_mod_cast hcast

/-- The floor-rescaled product modulo `2^nr`, or `max_val` when the policy saturates and a bit of the intermediate at `k`
or above is set (R69, R100). -/
theorem mulClamped_eq_ite (sat : Bool) (r : Shape) (aa ab : Int) : mulClamped sat r aa ab =
    if sat = true ∧ aa * ab % 2 ^ (2 * width r) / 2 ^ ovfMulPos r ≠ 0 then (maxVal r).toNat
    else (aa * ab / 2 ^ r.f.toNat % 2 ^ width r).toNat := by
  have hcast := congrArg Int.toNat (mulClamped_cast sat r aa ab)
  rwa [Int.toNat_natCast, apply_ite Int.toNat] at hcast

/-- MUL's pattern is the clamped one, less its sign bit for equal sign bits of a signed request (R100). -/
theorem mulPattern_eq_ite (sat : Bool) (r : Shape) (sa sb : Bool) (aa ab : Int) : mulPattern sat r (sa == sb) aa ab =
    if r.s = true ∧ sa = sb ∧ (mulClamped sat r aa ab).testBit (width r - 1) then
      mulClamped sat r aa ab - 2 ^ (width r - 1)
    else mulClamped sat r aa ab := by
  simp only [mulPattern_eq, clearSign_eq_ite (mulClamped_lt sat r aa ab), ← ite_and, Bool.and_eq_true, beq_iff_eq,
    and_assoc]

end Sys2Proof.Machine
end

section
/-! The statements about MUL (43_mul.md). -/

namespace Sys2Proof.Machine

/-- Settles O12: of the four operations MUL alone has its doubled width among the widths checked. -/
theorem mulWidthLimit : Obligations.MulWidthLimit := by
  intro a b s hv ha hb hs
  refine ⟨fun hwide => ?refused, fun hfit => ?mul, fun hfit => ?others⟩
  case refused =>
    refine exec_request_of_not_widthsFit (op := .mul) hv fun hw => ?_
    obtain ⟨-, -, -, hdouble⟩ := (widthsFit_iff_legalShape .mul a b).1 hw
    exact hwide.not_ge (hdouble rfl)
  case mul =>
    have hw : WidthsFit .mul a b := (widthsFit_iff_legalShape .mul a b).2 ⟨ha, hb, by omega, fun _ => hfit⟩
    exact exec_request_err_zero_of_legal hv hw hs (by simp)
  case others =>
    have hw (op : Op) (hop : op ≠ .mul) : WidthsFit op a b :=
      (widthsFit_iff_legalShape op a b).2 ⟨ha, hb, hfit, fun h => absurd h hop⟩
    exact ⟨exec_request_err_zero_of_legal hv (hw .add (by decide)) hs (by simp),
      exec_request_err_zero_of_legal hv (hw .sub (by decide)) hs (by simp),
      fun hz => exec_request_err_zero_of_legal hv (hw .div (by decide)) hs fun _ => hz⟩

/-- Settles O30: a legal MUL is answered with its pattern, which is the rescaled product through the clamper and the
sign-bit clear, and the checks are those of every request. -/
theorem mulGivesRescaledProduct : Obligations.MulGivesRescaledProduct := by
  refine fun a b s => ⟨fun hv hw hs => ⟨_, mulClamped_eq_ite _ _ _ _, ?_⟩, refusedByChecks .mul a b s⟩
  have hanswer : exec (.mul a b) s = .next (respondsWith s (requestPattern .mul a b s) (promote a b)) :=
    exec_request_of_legal (op := .mul) hv hw hs (by simp)
  have hsign : (promote a b).s = a.s := by rw [promote_s, ← hs, Bool.and_self]
  rw [hanswer, requestPattern, mulPattern_eq_ite, hsign, policy]

end Sys2Proof.Machine
end

section
/-! SUPPORT. A legal DIV by zero, what raises code 4, DIV's pattern as a natural number, and the zero pattern as the one
pattern that means zero (R110, R111, R134). -/

namespace Sys2Proof.Machine

/-- The rounded quotient modulo `2^nr` as a natural number, no clamper in between (R110). -/
theorem divPattern_eq_toNat_emod (r : Shape) (aa ab : Int) :
    divPattern r aa ab = (roundHaz (aa * 2 ^ r.f.toNat) ab % 2 ^ width r).toNat := rfl

/-- R134: past the width and sign checks, a DIV by the zero pattern is refused with code 4, whatever the numerator. -/
theorem exec_div_of_zero_divisor {a b : Shape} {s : State} (hv : s.cfg.valid = true) (hw : WidthsFit .div a b)
    (hs : a.s = b.s) (hz : operandB b s = 0) : exec (.div a b) s = .next { s with out := failed 4 } := by
  have hcause : requestCause .div a b s = some .divideByZero := by
    rw [requestCause_of_widthsFit hv hw, if_neg (not_not.2 hs), if_pos ⟨rfl, hz⟩]
  exact exec_request_of_cause (op := .div) hcause

theorem causeCode_eq_four_iff (c : Cause) : causeCode c = 4 ↔ c = .divideByZero := by
  cases c <;> decide

/-- The zero test of the checks is DIV's, on operand B (R134). -/
theorem requestCause_divideByZero {op : Op} {a b : Shape} {s : State}
    (h : requestCause op a b s = some .divideByZero) : op = .div ∧ operandB b s = 0 := by
  by_contra hz
  rw [requestCause_eq_ite, if_neg hz] at h
  split_ifs at h <;> cases h

/-- A response with code 4 answers a DIV by the zero pattern (R134). -/
theorem exec_request_err_four {op : Op} {a b : Shape} {s t : State} (h : exec (requestOf op a b) s = .next t)
    (herr : t.out.err = 4) : op = .div ∧ operandB b s = 0 := by
  rw [exec_requestOf] at h
  obtain ⟨c, hcause, rfl⟩ | ⟨-, rfl⟩ := answer_cases h
  · obtain rfl : c = .divideByZero := (causeCode_eq_four_iff c).1 herr
    exact requestCause_divideByZero hcause
  · exact absurd herr (by simp)

/-- Of a shape's patterns the zero pattern alone stands for zero: a signed one with its top bit set is negative
(R19, R134). -/
theorem val_eq_zero_iff {t : Shape} {p : Nat} (hp : p < 2 ^ width t) : val t p = 0 ↔ p = 0 := by
  have htop : 0 < 2 ^ (width t - 1) := by positivity
  zify at hp
  rw [val_eq_ite]
  split_ifs with h
  · obtain ⟨-, hle⟩ := h
    omega
  · exact Int.natCast_eq_zero

/-- Alignment is a shift to the left, so no value but zero is aligned to zero (R64). -/
theorem aligned_eq_zero_iff {t : Shape} {p : Nat} (r : Shape) (hp : p < 2 ^ width t) : aligned r t p = 0 ↔ p = 0 := by
  have hshift : (2 : Int) ^ (r.f.toNat - t.f.toNat) ≠ 0 := by positivity
  rw [aligned, mul_eq_zero_iff_right hshift, val_eq_zero_iff hp]

theorem realVal_eq_zero_iff {t : Shape} {p : Nat} (hp : p < 2 ^ width t) : realVal t p = 0 ↔ p = 0 := by
  have hscale : (2 : ℚ) ^ t.f.toNat ≠ 0 := by positivity
  rw [realVal, div_eq_zero_iff, or_iff_left hscale, Int.cast_eq_zero, val_eq_zero_iff hp]

end Sys2Proof.Machine
end

section
/-! The statements about DIV (44_div.md). -/

namespace Sys2Proof.Machine

/-- Settles O31: a legal DIV by a nonzero pattern is answered with its pattern, which is the rounded quotient modulo
`2^nr` under either policy; the checks are those of every request, and the zero test comes last. -/
theorem divGivesRoundedQuotient : Obligations.DivGivesRoundedQuotient := by
  refine fun a b s => ⟨fun hv hw hs hz => ?_, refusedByChecks .div a b s, exec_div_of_zero_divisor⟩
  have hanswer : exec (.div a b) s = .next (respondsWith s (requestPattern .div a b s) (promote a b)) :=
    exec_request_of_legal (op := .div) hv hw hs fun _ => hz
  rw [hanswer, requestPattern, divPattern_eq_toNat_emod]

/-- Settles O32: the zero pattern is the one that means zero, aligned or not, and no check but the last of DIV gives
code 4. -/
theorem zeroDivisorRaisesDivideByZero : Obligations.ZeroDivisorRaisesDivideByZero := by
  intro a b s
  have hlt : operandB b s < 2 ^ width b := operand_lt b s.port.bRaw
  exact ⟨(aligned_eq_zero_iff (promote a b) hlt).symm, (realVal_eq_zero_iff hlt).symm, Iff.rfl,
    exec_div_of_zero_divisor, fun _ _ => exec_request_err_four⟩

end Sys2Proof.Machine
end

section
/-! SUPPORT. CFGW on an unbound and on a bound unit, and what of the configuration port a cycle reads (R22, R120). -/

namespace Sys2Proof.Machine

theorem exec_cfgw_of_unbound {s : State} (hv : s.cfg.valid = false) (sat : Bool) :
    exec (.cfgw sat) s = .next (bindPolicy sat s) := by
  simp [exec_cfgw, hv]

theorem exec_cfgw_of_bound {s : State} (hv : s.cfg.valid = true) (sat : Bool) : exec (.cfgw sat) s = .next s := by
  simp [exec_cfgw, hv]

/-- The outputs of a cycle do not depend on the configuration port, which is for the edge that ends it (R22). -/
theorem responseOf_configPort (c : Option Bool) (p : Ports) (we sat : Bool) :
    responseOf c { p with cfgWe := we, cfgSat := sat } = responseOf c p := rfl

/-- Without `cfg_we` the edge does not read `cfg_sat`, and the ports are driven anew after it (R120). -/
theorem step_cfgSat_of_no_write {s : State} (hw : s.port.cfgWe = false) (sat : Bool) :
    step { s with port := { s.port with cfgSat := sat } } = step s := by
  rw [step_of_respondPhase (respondPhase_responseOf s), step_of_respondPhase (respondPhase_responseOf _)]
  simp only [setOut_port, hw, Bool.false_and, Bool.false_eq_true, if_false, responseOf_configPort]
  congr 1
  split_ifs
  · exact advance_of_ports (clearPolicy (setOut (responseOf (boundPolicy s.cfg) s.port) s)) _
  · exact advance_of_ports (setOut (responseOf (boundPolicy s.cfg) s.port) s) _

end Sys2Proof.Machine
end

section
/-! The statement about CFGW (45_cfgw.md). -/

namespace Sys2Proof.Machine

/-- Settles O39: `exec` has one case for each value of `VALID`, reset comes first at the edge, and the response phase
reads neither `cfg_we` nor `cfg_sat`. -/
theorem cfgwBindsOnce : Obligations.CfgwBindsOnce := by
  intro s sat
  obtain ⟨t, hstep, hout, hcfg⟩ := step_eq_next s
  obtain ⟨u, hstepNoWrite, houtNoWrite, -⟩ := step_eq_next { s with port := { s.port with cfgWe := false } }
  have hsame : u.out = t.out := by rw [houtNoWrite, hout, responseOf_configPort]
  exact ⟨fun hv => exec_cfgw_of_unbound hv sat, fun hv => exec_cfgw_of_bound hv sat,
    fun hr => ⟨t, hstep, hcfg.reset hr⟩, ⟨t, u, hstep, hstepNoWrite, hsame⟩,
    fun hw => step_cfgSat_of_no_write hw sat⟩

end Sys2Proof.Machine
end

section
/-! SUPPORT. Causes and codes: what makes a cause apply, a response's code and the cause its checks found, the code of
every request in the order of R135, and the shape a failed response names (R130, R131, R135, R136). -/

namespace Sys2Proof.Machine

/-- The condition of each cause, in numbers (R131, R132, R133, R134). -/
def CauseApplies (op : Op) (a b : Shape) (s : State) : Cause → Prop
  | .notConfigured => s.cfg.valid = false
  | .widthConfig => ¬WidthsFit op a b
  | .mixedSign => a.s ≠ b.s
  | .divideByZero => op = .div ∧ operandB b s = 0

/-- The checks report a cause only where its condition holds (R130). -/
theorem causeApplies_of_requestCause {op : Op} {a b : Shape} {s : State} {c : Cause}
    (h : requestCause op a b s = some c) : CauseApplies op a b s c := by
  rw [requestCause_eq_ite] at h
  split_ifs at h with hv hw hs hz <;> cases h
  · exact hv
  · exact hs
  · exact hz
  · exact hw

theorem causeCode_injective : Function.Injective causeCode := by
  intro c d
  cases c <;> cases d <;> decide

/-- The highest code is 4 (R130). -/
theorem causeCode_toNat_le (c : Cause) : (causeCode c).toNat ≤ 4 := by cases c <;> decide

/-- A response with a code is the exception the checks found (R136). -/
theorem exec_request_failed {op : Op} {a b : Shape} {s t : State} (h : exec (requestOf op a b) s = .next t)
    (herr : t.out.err ≠ 0) : ∃ c, requestCause op a b s = some c ∧ t = raise c s := by
  rw [exec_requestOf] at h
  obtain hfailed | ⟨-, rfl⟩ := answer_cases h
  · exact hfailed
  · exact absurd rfl herr

/-- The code of a response names a cause that applies (R130). -/
theorem causeApplies_of_err {op : Op} {a b : Shape} {s t : State} (h : exec (requestOf op a b) s = .next t)
    {c : Cause} (herr : t.out.err = causeCode c) : CauseApplies op a b s c := by
  obtain ⟨d, hcause, rfl⟩ := exec_request_failed h (herr ▸ causeCode_ne_zero c)
  obtain rfl : d = c := causeCode_injective herr
  exact causeApplies_of_requestCause hcause

/-- The code of every request: the first cause of R135's order that applies, else 0. -/
theorem exec_request_err (op : Op) (a b : Shape) (s : State) : ∃ t, exec (requestOf op a b) s = .next t ∧
    t.out.err =
      if s.cfg.valid = false then 1
      else if ¬WidthsFit op a b then 2
      else if a.s ≠ b.s then 3
      else if op = .div ∧ operandB b s = 0 then 4
      else 0 := by
  refine ⟨_, exec_request_eq_next op a b s, ?_⟩
  rw [setOut_out, requestCause_eq_ite]
  split_ifs <;> rfl

/-- Whatever its code, a response is marked valid, its code is at most 4, and beside one other than 0 there are zeros
(R130, R136). -/
theorem exec_request_ports {op : Op} {a b : Shape} {s t : State} (h : exec (requestOf op a b) s = .next t) :
    t.out.rspValid = true ∧ t.out.err.toNat ≤ 4 ∧ (t.out.err ≠ 0 → t.out.rRaw = 0 ∧ t.out.rFmt = 0) := by
  rw [exec_requestOf] at h
  obtain ⟨c, -, rfl⟩ | ⟨-, rfl⟩ := answer_cases h
  · exact ⟨rfl, causeCode_toNat_le c, fun _ => ⟨rfl, rfl⟩⟩
  · exact ⟨rfl, Nat.zero_le 4, fun herr => absurd rfl herr⟩

/-- `Execute` on an unbound unit is `NotConfigured` for every command word (R46, R131). -/
theorem responseOf_request_of_unbound {c : Cfg} {p : Ports} (hv : c.valid = false) (hreq : p.reqValid = true) :
    responseOf (boundPolicy c) p = failed 1 := by
  rw [responseOf_request _ hreq, boundPolicy, hv]
  rfl

/-- A shape code of zeros names the empty shape, which fits in neither operand position (R136). -/
theorem not_widthsFit_shapeOfFmt_zero (op : Op) (c : Shape) :
    ¬WidthsFit op (shapeOfFmt 0) c ∧ ¬WidthsFit op c (shapeOfFmt 0) := by
  have hempty : ¬1 ≤ (shapeOfFmt 0).w.toNat + (shapeOfFmt 0).f.toNat := by decide
  exact ⟨fun ⟨⟨hA, _⟩, _⟩ => hempty hA, fun ⟨_, ⟨hB, _⟩, _⟩ => hempty hB⟩

end Sys2Proof.Machine
end

section
/-! The statements about exceptions (60_exceptions.md). -/

namespace Sys2Proof.Machine

/-- Settles O42: a code names a cause the checks found, and the check of `VALID` comes before all others; CFGW leaves
the output ports as they are. -/
theorem errorCodesOfResponses : Obligations.ErrorCodesOfResponses := by
  refine ⟨fun op a b s => ?request, fun sat s => ?cfgw⟩
  case request =>
    obtain ⟨t, hexec, herr⟩ := exec_request_err op a b s
    obtain ⟨hvalid, hle, hzeros⟩ := exec_request_ports hexec
    exact ⟨t, hexec, hvalid, hle,
      ⟨causeApplies_of_err (c := .notConfigured) hexec, fun hv => by rw [herr, if_pos hv]⟩,
      causeApplies_of_err (c := .widthConfig) hexec, causeApplies_of_err (c := .mixedSign) hexec,
      causeApplies_of_err (c := .divideByZero) hexec, hzeros⟩
  case cfgw =>
    cases hv : s.cfg.valid with
    | false => exact ⟨_, exec_cfgw_of_unbound hv sat, bindPolicy_out sat s⟩
    | true => exact ⟨_, exec_cfgw_of_bound hv sat, rfl⟩

/-- Settles O43: the check of `VALID` comes first, whatever the command word. -/
theorem unboundUnitRefusesEveryRequest : Obligations.UnboundUnitRefusesEveryRequest := by
  refine fun s hv => ⟨exec_request_of_unbound hv, fun hreq => ?_⟩
  obtain ⟨t, hstep, hout, -⟩ := step_eq_next s
  exact ⟨t, hstep, hout.trans (responseOf_request_of_unbound hv hreq)⟩

/-- Settles O44: the checks are made in this order, and operand B is the low bits of its bus. -/
theorem firstCauseIsReported : Obligations.FirstCauseIsReported := exec_request_err

/-- Settles O45: a failed response is the exception alone, and the zeros on `r_fmt` name the empty shape, which a bound
unit refuses in either position. -/
theorem exceptionChangesNothingElse : Obligations.ExceptionChangesNothingElse := by
  intro op a b s t h herr
  obtain ⟨c, -, rfl⟩ := exec_request_failed h herr
  refine ⟨rfl, fun op' d hv => ?_⟩
  obtain ⟨hA, hB⟩ := not_widthsFit_shapeOfFmt_zero op' d
  exact ⟨exec_request_of_not_widthsFit hv hA, exec_request_of_not_widthsFit hv hB⟩

end Sys2Proof.Machine
end

section
/-! SUPPORT. A clean cycle in the numbers of the checks, and its outputs on a bound unit (R22, R48). -/

namespace Sys2Proof.Machine

theorem cleanCycle_request {p : Ports} (hreq : p.reqValid = true) : cleanCycle p =
    ((decodeCmd p.cmd).wf && (cmdOp p.cmd != .div || operand (shapeB p.cmd) p.bRaw != 0)) := by
  rw [cleanCycle, hreq, decodeCmd_eq_requestOf]
  cases cmdOp p.cmd <;> simp [requestOf]

/-- The request of a clean cycle is legal, and is not a DIV by zero (R48). -/
theorem cleanCycle_request_iff {p : Ports} (hreq : p.reqValid = true) : cleanCycle p = true ↔
    (WidthsFit (cmdOp p.cmd) (shapeA p.cmd) (shapeB p.cmd) ∧ (shapeA p.cmd).s = (shapeB p.cmd).s) ∧
      (cmdOp p.cmd = .div → operand (shapeB p.cmd) p.bRaw ≠ 0) := by
  rw [cleanCycle_request hreq, decodeCmd_eq_requestOf, Bool.and_eq_true, requestOf_wf_iff, Bool.or_eq_true, bne_iff_ne,
    bne_iff_ne, imp_iff_not_or]

/-- A cycle has a response exactly if it has a request (R22, R24). -/
theorem responseOf_rspValid (c : Option Bool) (p : Ports) : (responseOf c p).rspValid = p.reqValid := by
  cases hreq : p.reqValid with
  | false => rw [responseOf_idle _ hreq, idleResponse]
  | true => rw [responseOf_request _ hreq, executeSpec_rspValid]

/-- A bound unit's outputs in a clean cycle have no code (R48). -/
theorem responseOf_err_of_cleanCycle {s : State} (hv : s.cfg.valid = true) (hclean : cleanCycle s.port = true) :
    (responseOf (boundPolicy s.cfg) s.port).err = 0 := by
  cases hreq : s.port.reqValid with
  | false => rw [responseOf_idle _ hreq, idleResponse]
  | true =>
    obtain ⟨⟨hw, hs⟩, hz⟩ := (cleanCycle_request_iff hreq).1 hclean
    obtain ⟨t, hexec, herr⟩ := exec_request_err_zero_of_legal hv hw hs hz
    rw [← decodeCmd_eq_requestOf, exec_decodeCmd] at hexec
    injection hexec with hexec
    rw [responseOf_request _ hreq, ← herr, ← hexec, setOut_out]

end Sys2Proof.Machine
end

section
/-! The statement about the binding cycle (70_reset_and_hazards.md). -/

namespace Sys2Proof.Machine

/-- Settles O51: the outputs of a cycle follow the policy it begins with, which is none in the binding cycle and the
written one in the next. -/
theorem bindingCycleStillRefuses : Obligations.BindingCycleStillRefuses := by
  intro s hv hrst hwe hreq
  obtain ⟨t, hstep, hout, hedge⟩ := step_eq_next s
  have hbound : t.cfg = ⟨true, s.port.cfgSat⟩ := hedge.binds hrst hwe hv
  refine ⟨t, hstep, hout.trans (responseOf_request_of_unbound hv hreq), hbound, fun hreqNext hclean => ?_⟩
  obtain ⟨u, hstepNext, houtNext, -⟩ := step_eq_next t
  refine ⟨u, hstepNext, ?_, ?_⟩
  · rw [houtNext, responseOf_rspValid, hreqNext]
  · rw [houtNext, responseOf_err_of_cleanCycle (by rw [hbound]) hclean]

end Sys2Proof.Machine
end

section
/-! SUPPORT. Encoding and decoding undo each other, for a command word, for the configuration port's bit and for the
shape code (R41, R42, R43, R47, R120). -/

namespace Sys2Proof.Machine

/-- The instructions are the requests and CFGW. -/
theorem instr_cases (i : Instr) : (∃ op a b, i = requestOf op a b) ∨ ∃ sat, i = .cfgw sat := by
  cases i with
  | add a b => exact .inl ⟨.add, a, b, rfl⟩
  | sub a b => exact .inl ⟨.sub, a, b, rfl⟩
  | mul a b => exact .inl ⟨.mul, a, b, rfl⟩
  | div a b => exact .inl ⟨.div, a, b, rfl⟩
  | cfgw sat => exact .inr ⟨sat, rfl⟩

theorem encode_requestOf (op : Op) (a b : Shape) : encode (requestOf op a b) = ⟨32, (encodeCmd op a b).toNat⟩ := by
  cases op <;> rfl

/-- Two shapes with the same code are the same (R47). -/
theorem fmtOf_injective : Function.Injective fmtOf := Function.LeftInverse.injective shapeOfFmt_fmtOf

/-- Every code names a shape, and is its code (R47). -/
theorem fmtOf_shapeOfFmt (v : Fmt) : fmtOf (shapeOfFmt v) = v := by
  apply BitVec.eq_of_toNat_eq
  rw [fmtOf_toNat]
  simp only [shapeOfFmt, BitVec.extractLsb'_toNat, getLsbD_toNat, Nat.shiftRight_eq_div_pow]
  omega

/-- Operand A's fields in a command word are a shape code (R41, R47). -/
theorem fmtOf_shapeA (cmd : Cmd) : fmtOf (shapeA cmd) = cmd.extractLsb' 2 15 := by
  apply BitVec.eq_of_toNat_eq
  rw [fmtOf_toNat, shapeA_w_toNat, shapeA_f_toNat, shapeA_s_toNat, BitVec.extractLsb'_toNat, Nat.shiftRight_eq_div_pow]
  omega

/-- Operand B's fields in a command word are a shape code (R41, R47). -/
theorem fmtOf_shapeB (cmd : Cmd) : fmtOf (shapeB cmd) = cmd.extractLsb' 17 15 := by
  apply BitVec.eq_of_toNat_eq
  rw [fmtOf_toNat, shapeB_w_toNat, shapeB_f_toNat, shapeB_s_toNat, BitVec.extractLsb'_toNat, Nat.shiftRight_eq_div_pow]
  omega

@[simp] theorem shapeA_encodeCmd (op : Op) (a b : Shape) : shapeA (encodeCmd op a b) = a :=
  fmtOf_injective (by rw [fmtOf_shapeA, encodeCmd_codeA])

@[simp] theorem shapeB_encodeCmd (op : Op) (a b : Shape) : shapeB (encodeCmd op a b) = b :=
  fmtOf_injective (by rw [fmtOf_shapeB, encodeCmd_codeB])

theorem bitsOfOp_injective : Function.Injective bitsOfOp := by
  intro x y
  cases x <;> cases y <;> decide

@[simp] theorem cmdOp_encodeCmd (op : Op) (a b : Shape) : cmdOp (encodeCmd op a b) = op := by
  apply bitsOfOp_injective
  apply BitVec.eq_of_toNat_eq
  have hop := (bitsOfOp op).isLt
  rw [bitsOfOp_cmdOp_toNat, encodeCmd_toNat]
  omega

/-- The decoder reads back the operation and the shapes that were encoded (R41, R42, R43). -/
theorem decodeCmd_encodeCmd (op : Op) (a b : Shape) : decodeCmd (encodeCmd op a b) = requestOf op a b := by
  rw [decodeCmd_eq_requestOf, cmdOp_encodeCmd, shapeA_encodeCmd, shapeB_encodeCmd]

/-- The fields of a command word make up the whole word (R41). -/
theorem encodeCmd_of_fields (cmd : Cmd) : encodeCmd (cmdOp cmd) (shapeA cmd) (shapeB cmd) = cmd := by
  apply BitVec.eq_of_toNat_eq
  rw [encodeCmd_toNat, bitsOfOp_cmdOp_toNat, shapeA_w_toNat, shapeA_f_toNat, shapeA_s_toNat, shapeB_w_toNat,
    shapeB_f_toNat, shapeB_s_toNat_eq_div]
  omega

theorem encode_decodeCmd (cmd : Cmd) : encode (decodeCmd cmd) = ⟨32, cmd.toNat⟩ := by
  rw [decodeCmd_eq_requestOf, encode_requestOf, encodeCmd_of_fields]

/-- Every command word decodes (R43). -/
theorem decode_cmd (cmd : Cmd) : decode 32 cmd.toNat = .ok (decodeCmd cmd) := by
  rw [decode, if_pos rfl, if_pos cmd.isLt, BitVec.ofNat_toNat, BitVec.setWidth_eq]

/-- Both values of the configuration port's bit decode (R120). -/
theorem decode_cfgSat (sat : Bool) : decode 1 sat.toNat = .ok (decodeCfg sat) := by
  cases sat <;> rfl

/-- What decodes as a command word is one (R40). -/
theorem decode_32_eq_ok {w : Nat} {i : Instr} (h : decode 32 w = .ok i) :
    ∃ cmd : Cmd, w = cmd.toNat ∧ i = decodeCmd cmd := by
  rw [decode, if_pos rfl] at h
  split_ifs at h with hw
  injection h with h
  exact ⟨BitVec.ofNat 32 w, ((BitVec.toNat_ofNat w 32).trans (Nat.mod_eq_of_lt hw)).symm, h.symm⟩

/-- What decodes on the configuration port is one bit (R120). -/
theorem decode_1_eq_ok {w : Nat} {i : Instr} (h : decode 1 w = .ok i) :
    ∃ sat : Bool, w = sat.toNat ∧ i = .cfgw sat := by
  rw [decode, if_neg (by decide), if_pos (.inl rfl)] at h
  split_ifs at h with hw
  injection h with h
  refine ⟨w == 1, ?_, h.symm⟩
  obtain rfl | rfl : w = 0 ∨ w = 1 := by omega
  · rfl
  · rfl

/-- The operation of a command word by its two low bits (R43). -/
theorem cmdOp_eq_iff (cmd : Cmd) : (cmd.toNat % 4 = 0 ↔ cmdOp cmd = .add) ∧ (cmd.toNat % 4 = 1 ↔ cmdOp cmd = .sub) ∧
    (cmd.toNat % 4 = 2 ↔ cmdOp cmd = .mul) ∧ (cmd.toNat % 4 = 3 ↔ cmdOp cmd = .div) := by
  rw [← bitsOfOp_cmdOp_toNat]
  exact bitsOfOp_toNat_eq_iff _

theorem requestOf_ne_cfgw (op : Op) (a b : Shape) (sat : Bool) : requestOf op a b ≠ .cfgw sat := by
  cases op <;> exact Instr.noConfusion

end Sys2Proof.Machine
end

section
/-! The statements about encoding and decoding (30_encoding.md, 45_cfgw.md). -/

namespace Sys2Proof.Machine

/-- Settles O1: a request's word is read back field by field, and CFGW's bit is its operand. -/
theorem decodeInvertsEncode : Obligations.DecodeInvertsEncode := by
  intro i
  obtain ⟨op, a, b, rfl⟩ | ⟨sat, rfl⟩ := instr_cases i
  · rw [encode_requestOf, decode_cmd, decodeCmd_encodeCmd]
  · exact decode_cfgSat sat

/-- Settles O2: the fields of a command word leave no bit of it out, and CFGW has one bit. -/
theorem encodeInvertsDecode : Obligations.EncodeInvertsDecode := by
  refine ⟨fun w i h => ?_, fun w i h => ?_⟩
  · obtain ⟨cmd, rfl, rfl⟩ := decode_32_eq_ok h
    exact encode_decodeCmd cmd
  · obtain ⟨sat, rfl, rfl⟩ := decode_1_eq_ok h
    rfl

/-- Settles O5: the two low bits of the word give the operation, and each operation's request is not CFGW. -/
theorem opFieldSelectsOperation : Obligations.OpFieldSelectsOperation := by
  intro cmd
  obtain ⟨hadd, hsub, hmul, hdiv⟩ := cmdOp_eq_iff cmd
  simp only [decodeCmd_eq_requestOf]
  exact ⟨fun h => by rw [hadd.1 h, requestOf], fun h => by rw [hsub.1 h, requestOf],
    fun h => by rw [hmul.1 h, requestOf], fun h => by rw [hdiv.1 h, requestOf], requestOf_ne_cfgw _ _ _⟩

/-- Settles O6: the decoder runs on each word. -/
theorem writtenOutWordsDecode : Obligations.WrittenOutWordsDecode := by
  unfold Obligations.WrittenOutWordsDecode
  decide

/-- Settles O7: the code is the sum of its fields, and its fields are the shape's. -/
theorem shapeCodeRoundTrip : Obligations.ShapeCodeRoundTrip :=
  ⟨fun t => ⟨fmtOf_toNat t, shapeOfFmt_fmtOf t⟩, fmtOf_shapeOfFmt⟩

end Sys2Proof.Machine
end

section
/-! SUPPORT. The policy as the event view has it, over one cycle and over a run (R15, R22, R23, U14). -/

namespace Sys2Proof.Machine

theorem boundPolicy_eq_none_iff (c : Cfg) : boundPolicy c = none ↔ c.valid = false := by
  rw [boundPolicy]
  cases c.valid <;> simp

theorem boundPolicy_eq_some_iff (c : Cfg) (sat : Bool) : boundPolicy c = some sat ↔ c = ⟨true, sat⟩ := by
  obtain ⟨valid, sat'⟩ := c
  cases valid <;> simp [boundPolicy]

/-- Of CFG, the event view has `VALID`, and `SAT` only while it is bound (R13, R16). -/
theorem boundPolicy_eq_iff (c d : Cfg) :
    boundPolicy c = boundPolicy d ↔ c.valid = d.valid ∧ (c.valid = true → c.sat = d.sat) := by
  simp only [boundPolicy]
  cases c.valid <;> cases d.valid <;> simp

theorem visible_iff (s t : State) : Visible s t ↔
    boundPolicy s.cfg = boundPolicy t.cfg ∧ s.port = t.port ∧ s.out = t.out ∧ s.drive = t.drive := by
  rw [boundPolicy_eq_iff]
  exact ⟨fun ⟨hvalid, hsat, hport, hout, hdrive⟩ => ⟨⟨hvalid, hsat⟩, hport, hout, hdrive⟩,
    fun ⟨⟨hvalid, hsat⟩, hport, hout, hdrive⟩ => ⟨hvalid, hsat, hport, hout, hdrive⟩⟩

@[simp] theorem nextPolicy_request (c : Option Bool) (cmd : Cmd) (x y : Bus) :
    nextPolicy c (.request cmd x y) = c := by
  cases c <;> rfl

@[simp] theorem nextPolicy_reset (c : Option Bool) : nextPolicy c .reset = none := by
  cases c <;> rfl

/-- A write binds the policy if none is bound (R120). -/
@[simp] theorem nextPolicy_cfgWrite (c : Option Bool) (sat : Bool) :
    nextPolicy c (.cfgWrite sat) = c.or (some sat) := by
  cases c <;> rfl

/-- A cycle's reset leaves no policy, whatever else it holds (R150). -/
theorem foldl_nextPolicy_of_reset (c : Option Bool) {p : Ports} (hr : p.rst = true) :
    (eventsOf p).foldl nextPolicy c = none := by
  cases hq : p.reqValid <;> simp [eventsOf, hr, hq]

/-- In a cycle without reset, a policy once bound stays, and a write binds the one it carries (R15, R120). -/
theorem foldl_nextPolicy_of_no_reset (c : Option Bool) {p : Ports} (hr : p.rst = false) :
    (eventsOf p).foldl nextPolicy c = c.or (if p.cfgWe then some p.cfgSat else none) := by
  cases hw : p.cfgWe <;> cases hq : p.reqValid <;> simp [eventsOf, hr, hq, hw]

/-- The edge of a cycle does to the policy what the cycle's events do (R23). -/
theorem EdgeCfg.boundPolicy_eq {s : State} {c : Cfg} (h : EdgeCfg s c) :
    boundPolicy c = (eventsOf s.port).foldl nextPolicy (boundPolicy s.cfg) := by
  cases hr : s.port.rst with
  | true => rw [foldl_nextPolicy_of_reset _ hr, boundPolicy_eq_none_iff, h.reset hr]
  | false =>
    rw [foldl_nextPolicy_of_no_reset _ hr]
    by_cases hbinds : s.port.cfgWe = true ∧ s.cfg.valid = false
    · obtain ⟨hw, hv⟩ := hbinds
      rw [h.binds hr hw hv, (boundPolicy_eq_none_iff _).2 hv, if_pos hw]
      rfl
    · have hkeeps : s.port.cfgWe = false ∨ s.cfg.valid = true := by
        rwa [not_and_or, Bool.not_eq_true, Bool.not_eq_false] at hbinds
      rw [h.keeps hr hkeeps]
      obtain hw | hv := hkeeps
      · simp [hw]
      · simp [boundPolicy, hv]

/-- A step takes the next cycle's ports off the host's drives (R22, log entry 4). -/
theorem step_port_drive {s t : State} (h : step s = .next t) :
    t.port = s.drive.headD idlePorts ∧ t.drive = s.drive.tail := by
  obtain ⟨o, -, ⟨-, hs⟩ | ⟨-, -, -, hs⟩ | ⟨-, -, hs⟩⟩ := step_cases s <;> (rw [hs] at h; cases h; simp)

/-- One cycle in the event view: the response of `Execute`, then the cycle's events on the policy (R22, R23). -/
theorem step_event_view (s : State) : ∃ t, step s = .next t ∧
    t.out = responseOf (boundPolicy s.cfg) s.port ∧
    boundPolicy t.cfg = (eventsOf s.port).foldl nextPolicy (boundPolicy s.cfg) := by
  obtain ⟨t, hstep, hout, hedge⟩ := step_eq_next s
  exact ⟨t, hstep, hout, hedge.boundPolicy_eq⟩

/-- A cycle takes states that look the same to states that look the same (R16, U14). -/
theorem step_visible {s t : State} (h : Visible s t) :
    ∃ s' t', step s = .next s' ∧ step t = .next t' ∧ Visible s' t' := by
  obtain ⟨hpolicy, hport, -, hdrive⟩ := (visible_iff s t).1 h
  obtain ⟨s', hs, houts, hpols⟩ := step_event_view s
  obtain ⟨t', ht, houtt, hpolt⟩ := step_event_view t
  obtain ⟨hports, hdrives⟩ := step_port_drive hs
  obtain ⟨hportt, hdrivet⟩ := step_port_drive ht
  refine ⟨s', t', hs, ht, (visible_iff s' t').2 ⟨?_, ?_, ?_, ?_⟩⟩
  · rw [hpols, hpolt, hpolicy, hport]
  · rw [hports, hportt, hdrive]
  · rw [houts, houtt, hpolicy, hport]
  · rw [hdrives, hdrivet, hdrive]

/-- The policy after the next state's first `n` cycles is that after one cycle more from here. -/
theorem policyAfter_of_step {s t : State} (h : step s = .next t) (n : Nat) :
    policyAfter t n = policyAfter s (n + 1) := by
  induction n with
  | zero =>
    obtain ⟨t', hstep, -, hpolicy⟩ := step_event_view s
    obtain rfl : t' = t := Host.Outcome.next.inj (hstep.symm.trans h)
    exact hpolicy
  | succ n ih => rw [policyAfter, ih, portAt_of_step h, ← policyAfter]

/-- After `n` cycles the policy is what their events make it, and the ports are those of the next cycle (R23). -/
theorem runCycles_event_view (n : Nat) : ∀ s : State, ∃ t, runCycles n s = .next t ∧
    boundPolicy t.cfg = policyAfter s n ∧ t.port = portAt s n := by
  induction n with
  | zero => exact fun s => ⟨s, rfl, rfl, rfl⟩
  | succ n ih =>
    intro s
    obtain ⟨t, hstep, -, -⟩ := step_event_view s
    obtain ⟨u, hrun, hpolicy, hport⟩ := ih t
    exact ⟨u, (runCycles_succ n hstep).trans hrun, hpolicy.trans (policyAfter_of_step hstep n),
      hport.trans (portAt_of_step hstep n)⟩

/-- A run's last cycle is a step from where the run without it ends. -/
theorem runCycles_succ_last (n : Nat) : ∀ {s t : State}, runCycles n s = .next t → runCycles (n + 1) s = step t := by
  induction n with
  | zero =>
    intro s t h
    obtain rfl : s = t := Host.Outcome.next.inj h
    obtain ⟨u, hstep, -, -⟩ := step_event_view s
    rw [runCycles_succ 0 hstep, hstep, runCycles]
  | succ n ih =>
    intro s t h
    obtain ⟨u, hstep, -, -⟩ := step_event_view s
    rw [runCycles_succ n hstep] at h
    rw [runCycles_succ (n + 1) hstep, ih h]

/-- While no cycle resets or writes, an unbound unit has no policy (R15). -/
theorem policyAfter_eq_none {s : State} (hv : s.cfg.valid = false) {n : Nat}
    (hr : ∀ k < n, (portAt s k).rst = false) (hw : ∀ k < n, (portAt s k).cfgWe = false) : policyAfter s n = none := by
  induction n with
  | zero => exact (boundPolicy_eq_none_iff _).2 hv
  | succ n ih =>
    have hnone : policyAfter s n = none :=
      ih (fun k hk => hr k (hk.trans n.lt_succ_self)) fun k hk => hw k (hk.trans n.lt_succ_self)
    rw [policyAfter, hnone, foldl_nextPolicy_of_no_reset _ (hr n n.lt_succ_self), hw n n.lt_succ_self]
    rfl

/-- A policy once bound stays through any run of cycles without reset (R15). -/
theorem policyAfter_eq_some {s : State} {sat : Bool} {m n : Nat} (hmn : m ≤ n) (hm : policyAfter s m = some sat)
    (hr : ∀ k < n, (portAt s k).rst = false) : policyAfter s n = some sat := by
  induction n, hmn using Nat.le_induction with
  | base => exact hm
  | succ n _ ih =>
    have hsome : policyAfter s n = some sat := ih fun k hk => hr k (hk.trans n.lt_succ_self)
    rw [policyAfter, hsome, foldl_nextPolicy_of_no_reset _ (hr n n.lt_succ_self), Option.some_or]

end Sys2Proof.Machine
end

section
/-! SUPPORT. What the output ports may hold, in an idle cycle, after a request and in any cycle (R18, R24, R47, R130,
R136). -/

namespace Sys2Proof.Machine

theorem idleResponse_inv : idleResponse.Inv :=
  ⟨fun _ => ⟨rfl, rfl, rfl⟩, Nat.zero_le 4, fun _ => ⟨rfl, rfl⟩, fun hvalid => by cases hvalid⟩

/-- The shape of a result is legal (R62, R132). -/
theorem legalShape_promote {op : Op} {a b : Shape} (hw : WidthsFit op a b) : legalShape (promote a b) = true := by
  obtain ⟨ha, -, hle, -⟩ := (widthsFit_iff_legalShape op a b).1 hw
  obtain ⟨hpos, -⟩ := (legalShape_iff a).1 ha
  exact (legalShape_iff _).2 ⟨hpos.trans (width_le_width_promote a b), hle⟩

/-- A request leaves on the output ports a code with zeros, or a pattern of a legal shape (R47, R136). -/
theorem exec_request_out_inv {op : Op} {a b : Shape} {s t : State} (h : exec (requestOf op a b) s = .next t) :
    t.out.Inv := by
  obtain ⟨hvalid, hle, hzeros⟩ := exec_request_ports h
  refine ⟨fun hidle => by simp [hvalid] at hidle, hle, hzeros, fun _ herr => ?_⟩
  obtain ⟨hcause, -⟩ := exec_request_result h herr
  obtain ⟨-, hwidth, -⟩ := (requestCause_eq_none_iff op a b s).1 hcause
  rw [result_shape h herr, result_rRaw_toNat h herr]
  exact ⟨legalShape_promote ((widthIllegal_eq_false_iff_widthsFit op a b).1 hwidth), requestPattern_lt op a b s⟩

/-- CFGW leaves the output ports as they are (R120). -/
theorem exec_cfgw_out {sat : Bool} {s t : State} (h : exec (.cfgw sat) s = .next t) : t.out = s.out := by
  obtain ⟨-, rfl⟩ | ⟨-, rfl⟩ := exec_cfgw_cases h
  · rfl
  · exact bindPolicy_out sat s

/-- The outputs of a cycle, with a request or without one (R22, R24). -/
theorem responseOf_inv (s : State) : (responseOf (boundPolicy s.cfg) s.port).Inv := by
  cases hreq : s.port.reqValid with
  | false =>
    rw [responseOf_idle _ hreq]
    exact idleResponse_inv
  | true =>
    rw [responseOf_request _ hreq]
    exact exec_request_out_inv (exec_decodeCmd s.port.cmd s)

end Sys2Proof.Machine
end

section
/-! SUPPORT. A step by its two phases, the decoded instruction in each, and what reset does not reach (R22, R150). -/

namespace Sys2Proof.Machine

theorem step_of_phases {s t u : State} (hresp : respondPhase s = .next t) (hedge : edgePhase t = .next u) :
    step s = .next (advance u) := by
  simp [step, cycle, andThen, hresp, hedge]

/-- An edge with `cfg_we` alone runs CFGW on what the response phase left (R22). -/
theorem edgePhase_write {s : State} (o : Response) (hr : s.port.rst = false) (hw : s.port.cfgWe = true) :
    edgePhase (setOut o s) = exec (decodeCfg s.port.cfgSat) (setOut o s) := by
  simp [edgePhase, hr, hw]

theorem edgePhase_quiet {s : State} (o : Response) (hr : s.port.rst = false) (hw : s.port.cfgWe = false) :
    edgePhase (setOut o s) = .next (setOut o s) := by
  simp [edgePhase, hr, hw]

/-- The outputs of a cycle do not depend on `rst`, which is for the edge that ends it (R150). -/
theorem responseOf_rst (c : Option Bool) (p : Ports) (rst : Bool) :
    responseOf c { p with rst := rst } = responseOf c p := rfl

end Sys2Proof.Machine
end

section
/-! The statements about one cycle (10_state.md, 20_memory.md, 70_reset_and_hazards.md). -/

namespace Sys2Proof.Machine

/-- Settles O46: the response phase runs the request and leaves the ports alone, so the edge runs CFGW on what the
request left. -/
theorem stepRunsDecodedInstruction : Obligations.StepRunsDecodedInstruction := by
  intro s hr
  rw [decode_cmd, decode_cfgSat]
  refine ⟨fun i hreq hw hi => ?request, fun i hreq hw hi => ?write, fun i j hreq hw hi hj => ?both⟩
  case request =>
    obtain rfl := Except.ok.inj hi
    exact ⟨_, exec_decodeCmd _ s,
      step_of_phases ((respondPhase_request s hreq).trans (exec_decodeCmd _ s)) (edgePhase_quiet _ hr hw)⟩
  case write =>
    obtain rfl := Except.ok.inj hi
    exact ⟨_, exec_cfgw _ (setOut idleResponse s),
      step_of_phases (respondPhase_idle s hreq) ((edgePhase_write _ hr hw).trans (exec_cfgw _ _))⟩
  case both =>
    obtain rfl := Except.ok.inj hi
    obtain rfl := Except.ok.inj hj
    exact ⟨_, _, exec_decodeCmd _ s, exec_cfgw _ _,
      step_of_phases ((respondPhase_request s hreq).trans (exec_decodeCmd _ s))
        ((edgePhase_write _ hr hw).trans (exec_cfgw _ _))⟩

/-- Settles O50: the edge takes reset first, and the response phase does not read it. -/
theorem resetUnbindsAfterItsCycle : Obligations.ResetUnbindsAfterItsCycle := by
  intro s hr
  obtain ⟨t, hstep, hout, hedge⟩ := step_eq_next s
  obtain ⟨u, hstepNoReset, houtNoReset, -⟩ := step_eq_next { s with port := { s.port with rst := false } }
  refine ⟨t, u, hstep, hedge.reset hr, hstepNoReset, ?_⟩
  exact hout.trans (houtNoReset.trans (responseOf_rst _ s.port false)).symm

/-- Settles O52: the outputs and the policy after the edge are functions of the ports and of the policy before it. -/
theorem outputsDependOnCycleAlone : Obligations.OutputsDependOnCycleAlone := by
  intro s t hcfg hport
  obtain ⟨s', hs, houts, hpols⟩ := step_event_view s
  obtain ⟨t', ht, houtt, hpolt⟩ := step_event_view t
  have hpolicy : boundPolicy s'.cfg = boundPolicy t'.cfg := by rw [hpols, hpolt, hcfg, hport]
  obtain ⟨hvalid, hsat⟩ := (boundPolicy_eq_iff _ _).1 hpolicy
  refine ⟨s', t', hs, ht, by rw [houts, houtt, hcfg, hport], hvalid, fun hv => ?_⟩
  exact (Cfg.mk.injEq ..).mpr ⟨hvalid, hsat hv⟩

/-- Settles O53: the reset state is unbound by definition, and a listing line neither binds nor resets it. -/
theorem resetStateIsUnbound : Obligations.ResetStateIsUnbound := by
  refine ⟨rfl, rfl, fun op a b x y => ?_⟩
  obtain ⟨t, hstep, hout, hedge⟩ := step_eq_next { State.reset with port := requestLine op a b x y }
  exact ⟨t, hstep, hout.trans (responseOf_request_of_unbound rfl rfl), hedge.keeps rfl (.inl rfl)⟩

/-- Settles O54: at reset the output ports are those of an idle cycle. -/
theorem resetMeetsInvariant : Obligations.ResetMeetsInvariant := idleResponse_inv

/-- Settles O55: a request drives the ports anew and CFGW leaves them, and a step drives the outputs of its cycle. -/
theorem everyStepKeepsInvariant : Obligations.EveryStepKeepsInvariant := by
  refine ⟨fun i s t hinv h => ?exec, fun s t _ h => ?step⟩
  case exec =>
    obtain ⟨op, a, b, rfl⟩ | ⟨sat, rfl⟩ := instr_cases i
    · exact exec_request_out_inv h
    · rw [State.Inv, exec_cfgw_out h]
      exact hinv
  case step =>
    obtain ⟨t', hstep, hout, -⟩ := step_eq_next s
    obtain rfl : t' = t := Host.Outcome.next.inj (hstep.symm.trans h)
    rw [State.Inv, hout]
    exact responseOf_inv s

end Sys2Proof.Machine
end

section
/-! The statements about runs of cycles (10_state.md, 60_exceptions.md, 70_reset_and_hazards.md). -/

namespace Sys2Proof.Machine

/-- Settles O56, by induction on the number of cycles. -/
theorem unboundSatIsUnobservable : Obligations.UnboundSatIsUnobservable := by
  intro s t n
  induction n generalizing s t with
  | zero => exact fun h => ⟨s, t, rfl, rfl, h⟩
  | succ n ih =>
    intro h
    obtain ⟨s', t', hs, ht, h'⟩ := step_visible h
    rw [runCycles_succ n hs, runCycles_succ n ht]
    exact ih s' t' h'

/-- Settles O57: the first `n` cycles leave the policy and the ports that the last one begins with. -/
theorem cyclesRefineEvents : Obligations.CyclesRefineEvents := by
  intro s n
  obtain ⟨t, hrun, hpolicy, hport⟩ := runCycles_event_view n s
  obtain ⟨u, hstep, hout, hnext⟩ := step_event_view t
  rw [hpolicy, hport] at hout hnext
  exact ⟨u, (runCycles_succ_last n hrun).trans hstep, hnext, hout⟩

/-- Settles O58: no event before the first write binds a policy, and none after it unbinds the one it bound. -/
theorem policyIsTheFirstWrite : Obligations.PolicyIsTheFirstWrite := by
  intro s n hv hr
  obtain ⟨t, hrun, hpolicy, -⟩ := runCycles_event_view n s
  refine ⟨t, hrun, fun hw => ?unbound, fun k hk hwk hfirst => ?bound⟩
  case unbound => rw [← boundPolicy_eq_none_iff, hpolicy, policyAfter_eq_none hv hr hw]
  case bound =>
    have hbefore : policyAfter s k = none := policyAfter_eq_none hv (fun j hj => hr j (hj.trans hk)) hfirst
    have hwritten : policyAfter s (k + 1) = some (portAt s k).cfgSat := by
      rw [policyAfter, hbefore, foldl_nextPolicy_of_no_reset _ (hr k hk), if_pos hwk, Option.none_or]
    rw [← boundPolicy_eq_some_iff, hpolicy, policyAfter_eq_some hk hwritten hr]

/-- Settles O59: without reset the unit is still bound in the last cycle, whose clean request has a result. -/
theorem cleanRunHasNoError : Obligations.CleanRunHasNoError := by
  intro s n hv hclean
  obtain ⟨t, hrun, hpolicy, hport⟩ := runCycles_event_view n s
  have hstart : policyAfter s 0 = some s.cfg.sat := (boundPolicy_eq_some_iff _ _).2 ((Cfg.mk.injEq ..).mpr ⟨hv, rfl⟩)
  have hbound : t.cfg = ⟨true, s.cfg.sat⟩ := by
    rw [← boundPolicy_eq_some_iff, hpolicy]
    exact policyAfter_eq_some n.zero_le hstart fun k hk => (hclean k hk.le).1
  obtain ⟨-, hcleanLast⟩ := hclean n le_rfl
  obtain ⟨u, hstep, hout, -⟩ := step_event_view t
  refine ⟨u, (runCycles_succ_last n hrun).trans hstep, ?_, ?_⟩
  · rw [hout, responseOf_rspValid, hport]
  · rw [hout, responseOf_err_of_cleanCycle (by rw [hbound]) (by rwa [hport])]

end Sys2Proof.Machine
end

section
/-! SUPPORT. Patterns and the integers they stand for: the range of a shape, the residue modulo `2^n`, and why the two
fix each other (00_scope.md section 5.2). -/

namespace Sys2Proof.Machine

theorem width_pos {t : Shape} (ht : legalShape t = true) : 1 ≤ width t := ((legalShape_iff t).1 ht).1

/-- The top bit's place is half the number of patterns. -/
theorem two_pow_width_eq {t : Shape} (hn : 1 ≤ width t) : (2 : Int) ^ width t = 2 * 2 ^ (width t - 1) := by
  rw [← pow_succ', Nat.sub_add_cancel hn]

/-- A shape has as many values as patterns. -/
theorem maxVal_sub_minVal {t : Shape} (hn : 1 ≤ width t) : maxVal t - minVal t = 2 ^ width t - 1 := by
  have htop := two_pow_width_eq hn
  unfold maxVal minVal
  split <;> omega

theorem val_range {t : Shape} {p : Nat} (hn : 1 ≤ width t) (hp : p < 2 ^ width t) :
    minVal t ≤ val t p ∧ val t p ≤ maxVal t := by
  have htop := two_pow_width_eq hn
  zify at hp
  unfold val minVal maxVal
  cases t.s
  · simp only [Bool.false_eq_true, if_false]
    omega
  · simp only [if_true]
    split_ifs with h <;> zify at h <;> omega

/-- A pattern and its value are the same modulo `2^n`. -/
theorem val_emod (t : Shape) (p : Nat) : val t p % 2 ^ width t = (p : Int) % 2 ^ width t := by
  rw [val_eq_ite]
  split_ifs
  · exact Int.sub_emod_right _ _
  · rfl

theorem wrap_emod (t : Shape) (v : Int) : wrap t v % 2 ^ width t = v % 2 ^ width t := by
  rw [wrap, val_emod, pat_cast, Int.emod_emod_of_dvd _ dvd_rfl]

theorem two_pow_dvd_wrap_sub (t : Shape) (v : Int) : (2 : Int) ^ width t ∣ wrap t v - v :=
  Int.ModEq.dvd (wrap_emod t v).symm

theorem wrap_range {t : Shape} (hn : 1 ≤ width t) (v : Int) : minVal t ≤ wrap t v ∧ wrap t v ≤ maxVal t :=
  val_range hn (pat_lt _ _)

/-- Two values of a shape's range that are the same modulo `2^n` are the same. -/
theorem eq_of_range_of_emod_eq {t : Shape} (hn : 1 ≤ width t) {v w : Int} (hv : minVal t ≤ v ∧ v ≤ maxVal t)
    (hw : minVal t ≤ w ∧ w ≤ maxVal t) (h : v % 2 ^ width t = w % 2 ^ width t) : v = w := by
  have hlen := maxVal_sub_minVal hn
  refine sub_eq_zero.1 (Int.eq_zero_of_abs_lt_dvd (Int.ModEq.dvd h.symm) ?_)
  rw [abs_lt]
  omega

/-- Writing a value of the range and reading it back gives the value. -/
theorem wrap_of_range {t : Shape} (hn : 1 ≤ width t) {v : Int} (hv : minVal t ≤ v ∧ v ≤ maxVal t) :
    wrap t v = v :=
  eq_of_range_of_emod_eq hn (wrap_range hn v) hv (wrap_emod t v)

/-- Values that are the same modulo `2^n` are written as the same pattern. -/
theorem pat_congr {n : Nat} {v w : Int} (h : v % 2 ^ n = w % 2 ^ n) : pat n v = pat n w := by
  rw [pat, pat, h]

theorem pat_natCast {n p : Nat} (hp : p < 2 ^ n) : pat n p = p := by
  zify at hp ⊢
  rw [pat_cast, Int.emod_eq_of_lt (by positivity) hp]

/-- Reading a pattern and writing its value gives the pattern back. -/
theorem pat_val {t : Shape} {p : Nat} (hp : p < 2 ^ width t) : pat (width t) (val t p) = p := by
  rw [pat_congr (val_emod t p), pat_natCast hp]

end Sys2Proof.Machine
end

section
/-! SUPPORT. The low bits of a pattern as a sum of their weights, and a value as its low bits and its top bit (R7, R18,
R31). -/

namespace Sys2Proof.Machine

/-- One bit more of a pattern's low bits. -/
theorem mod_two_pow_add_one (p n : Nat) : p % 2 ^ (n + 1) = p % 2 ^ n + 2 ^ n * (p.testBit n).toNat := by
  rw [Nat.mod_pow_succ, Nat.toNat_testBit]

/-- The weight of bit `i` with `F` bits after the point (R18). -/
def bitWeight (F p i : Nat) : ℚ := if p.testBit i then (2 : ℚ) ^ ((i : Int) - F) else 0

theorem bitWeight_eq (F p i : Nat) : bitWeight F p i = (p.testBit i).toNat * 2 ^ i / 2 ^ F := by
  rw [bitWeight, zpow_sub₀ two_ne_zero, zpow_natCast, zpow_natCast]
  cases p.testBit i <;> simp

/-- The low `n` bits of a pattern, by their weights. -/
theorem sum_bitWeight (F p n : Nat) : ∑ i ∈ Finset.range n, bitWeight F p i = (p % 2 ^ n : Nat) / 2 ^ F := by
  induction n with
  | zero => simp [Nat.mod_one]
  | succ n ih =>
    rw [Finset.sum_range_succ, ih, bitWeight_eq, mod_two_pow_add_one]
    push_cast
    ring

/-- A pattern's value is its low bits and its top bit, which counts negative when signed (R19). -/
theorem val_eq_low_add_top {t : Shape} {p : Nat} (hn : 1 ≤ width t) (hp : p < 2 ^ width t) :
    val t p = (p % 2 ^ (width t - 1) : Nat) +
      (if t.s then -1 else 1) * ((p.testBit (width t - 1)).toNat * 2 ^ (width t - 1)) := by
  have hsplit : (p : Int) =
      (p % 2 ^ (width t - 1) : Nat) + 2 ^ (width t - 1) * (p.testBit (width t - 1)).toNat := by
    have h := mod_two_pow_add_one p (width t - 1)
    rw [Nat.sub_add_cancel hn, Nat.mod_eq_of_lt hp] at h
    exact_mod_cast h
  cases hs : t.s with
  | false =>
    have hval : val t p = p := by rw [val, if_neg (by simp [hs])]
    rw [hval, if_neg Bool.false_ne_true]
    linarith
  | true =>
    have htop := two_pow_width_eq hn
    rw [val_of_topBit hs hp, if_pos rfl]
    cases hb : p.testBit (width t - 1) <;>
      simp only [hb, Bool.toNat_false, Bool.toNat_true, Nat.cast_zero, Nat.cast_one, Bool.false_eq_true, if_true,
        if_false] at hsplit ⊢ <;>
      linarith

/-- The digits after the point are the low `F` bits, the first of them bit `F-1` (R7). -/
theorem fractional_eq (t : Shape) (p : Nat) : fractional t p = (p % 2 ^ t.f.toNat : Nat) / 2 ^ t.f.toNat := by
  rw [← sum_bitWeight, ← Finset.sum_range_reflect]
  refine congrArg List.sum (List.map_congr_left fun k hk => ?_)
  have hk := List.mem_range.1 hk
  have hexp : ((t.f.toNat - 1 - k : Nat) : Int) - t.f.toNat = -((k + 1 : Nat) : Int) := by omega
  rw [bitWeight, hexp, zpow_neg, zpow_natCast, one_div, Nat.sub_sub, Nat.add_comm 1 k]

theorem getFrac_eq_mod (t : Shape) (p : Nat) : getFrac t p = p % 2 ^ t.f.toNat := Nat.and_two_pow_sub_one_eq_mod _ _

/-- The bits after the point do not see the weight of the sign bit (R7). -/
theorem getFrac_eq_emod (t : Shape) (p : Nat) : (getFrac t p : Int) = val t p % 2 ^ t.f.toNat := by
  have hdvd : (2 : Int) ^ t.f.toNat ∣ 2 ^ width t := pow_dvd_pow 2 (Nat.le_add_left _ _)
  rw [getFrac_eq_mod, ← Int.emod_emod_of_dvd _ hdvd, val_emod, Int.emod_emod_of_dvd _ hdvd]
  push_cast
  rfl

theorem getWhole_eq_floor (t : Shape) (p : Nat) : getWhole t p = ⌊realVal t p⌋ := by
  have h := Rat.floor_intCast_div_natCast (val t p) (2 ^ t.f.toNat)
  push_cast at h
  rw [realVal, h, getWhole]

end Sys2Proof.Machine
end

section
/-! SUPPORT. The characters of a bit string (R8). -/

namespace Sys2Proof.Machine

@[simp] theorem length_bitChars (n p : Nat) : (bitChars n p).length = n := by
  induction n with
  | zero => rfl
  | succ n ih => rw [bitChars, List.length_cons, ih]

theorem mem_bitChars {c : Char} {n p : Nat} (h : c ∈ bitChars n p) : c = '0' ∨ c = '1' := by
  induction n with
  | zero => cases h
  | succ n ih =>
    obtain rfl | h := List.mem_cons.1 h
    · cases p.testBit n <;> simp
    · exact ih h

/-- A bit's character is read as the bit. -/
theorem readDigit_bitChar (b : Bool) : (if (if b then '1' else '0') = '1' then 1 else 0) = b.toNat := by
  cases b <;> rfl

/-- Reading the digits of a pattern after those of `m` appends them to `m`. -/
theorem foldl_bitChars (n p : Nat) : ∀ m : Nat,
    (bitChars n p).foldl (fun n c => 2 * n + if c = '1' then 1 else 0) m = m * 2 ^ n + p % 2 ^ n := by
  induction n with
  | zero => simp [bitChars, Nat.mod_one]
  | succ n ih =>
    intro m
    rw [bitChars, List.foldl_cons, ih, mod_two_pow_add_one, readDigit_bitChar]
    ring

theorem readBits_bitChars (n p : Nat) : readBits (bitChars n p) = p % 2 ^ n := by
  rw [readBits, foldl_bitChars, Nat.zero_mul, Nat.zero_add]

theorem length_take_bitChars (t : Shape) (p : Nat) : ((bitChars (width t) p).take t.w.toNat).length = t.w.toNat := by
  rw [List.length_take, length_bitChars, width, min_eq_left (Nat.le_add_right _ _)]

theorem length_toBitstring (t : Shape) (p : Nat) : (toBitstring t p).length = t.w.toNat + t.f.toNat + 1 := by
  rw [toBitstring, List.length_append, length_take_bitChars, List.length_cons, List.length_drop, length_bitChars, width]
  omega

/-- The point stands after the `W`-th digit (R8). -/
theorem toBitstring_point (t : Shape) (p : Nat) : (toBitstring t p)[t.w.toNat]? = some '.' := by
  rw [toBitstring, List.getElem?_append_right (length_take_bitChars t p).le, length_take_bitChars, Nat.sub_self]
  rfl

/-- Without its point a bit string is the digits of the pattern (R8). -/
theorem toBitstring_eraseIdx (t : Shape) (p : Nat) :
    (toBitstring t p).eraseIdx t.w.toNat = bitChars (width t) p := by
  rw [toBitstring, List.eraseIdx_append_of_length_le (length_take_bitChars t p).le, length_take_bitChars, Nat.sub_self,
    List.eraseIdx_cons_zero, List.take_append_drop]

/-- Without whole bits the point comes first (R8). -/
theorem head_toBitstring {t : Shape} (hw : t.w = 0) (p : Nat) : (toBitstring t p).head? = some '.' := by
  simp [toBitstring, hw]

/-- Without bits after the point it comes last (R8). -/
theorem getLast_toBitstring {t : Shape} (hf : t.f = 0) (p : Nat) : (toBitstring t p).getLast? = some '.' := by
  have hdrop : (bitChars (width t) p).drop t.w.toNat = [] := by simp [width, hf]
  rw [toBitstring, hdrop, List.getLast?_concat]

end Sys2Proof.Machine
end

section
/-! The statements about patterns and values (00_scope.md, 10_state.md, 20_memory.md). -/

namespace Sys2Proof.Machine

/-- Settles O18: a pattern and its value are the same modulo `2^n`, and the range holds each residue once. -/
theorem readingInvertsWrapping : Obligations.ReadingInvertsWrapping := by
  intro t ht
  refine ⟨fun p hp => ?_, fun v hmin hmax => wrap_of_range (width_pos ht) ⟨hmin, hmax⟩, two_pow_dvd_wrap_sub t⟩
  obtain ⟨hmin, hmax⟩ := val_range (width_pos ht) hp
  exact ⟨hmin, hmax, pat_val hp⟩

/-- Settles O19: the bits below the top one sum to their number, and the top one is added with its sign. -/
theorem bitWeightsOfPattern : Obligations.BitWeightsOfPattern := by
  intro t p ht hp
  have hlow : ∀ i ∈ List.range (width t - 1),
      (if p.testBit i then (if t.s = true ∧ i = width t - 1 then -1 else 1) * (2 : ℚ) ^ ((i : Int) - t.f.toNat)
        else 0) = bitWeight t.f.toNat p i := by
    intro i hi
    have hne : i ≠ width t - 1 := (List.mem_range.1 hi).ne
    simp [bitWeight, hne]
  have hsum : ((List.range (width t - 1)).map (bitWeight t.f.toNat p)).sum =
      (p % 2 ^ (width t - 1) : Nat) / 2 ^ t.f.toNat := sum_bitWeight t.f.toNat p (width t - 1)
  rw [← Nat.sub_add_cancel (width_pos ht), List.range_succ, List.map_append, List.sum_append, Nat.add_sub_cancel,
    List.map_congr_left hlow, hsum, List.map_singleton, List.sum_singleton]
  simp only [and_true, ← mul_ite_zero, ← bitWeight.eq_1, bitWeight_eq]
  rw [realVal, val_eq_low_add_top (width_pos ht) hp]
  generalize p % 2 ^ (width t - 1) = low
  push_cast
  ring

/-- Settles O21: a value in range is its own residue, and the clamper's value stands only above the range. -/
theorem constructWritesValue : Obligations.ConstructWritesValue := by
  intro t sat scaled ht
  refine ⟨fun hmeaning => ?written, fun hs hneg => if_pos ⟨hs, hneg⟩⟩
  have hmeant : ¬(t.s = false ∧ scaled < 0) := by
    rintro ⟨hs, hneg⟩
    simp [hs, hneg.not_ge] at hmeaning
  rw [construct, if_neg hmeant]
  by_cases hclamp : sat = true ∧ maxVal t < scaled
  · obtain ⟨hsat, habove⟩ := hclamp
    refine ⟨_, if_pos ⟨hsat, habove⟩, fun _ hle => absurd hle habove.not_ge,
      fun _ _ => Int.toNat_of_nonneg (maxVal_nonneg t), fun hwrap => ?_⟩
    simp [hsat, habove.not_ge] at hwrap
  · refine ⟨_, if_neg hclamp, fun hmin hmax => ?_, fun hsat habove => absurd ⟨hsat, habove⟩ hclamp,
      fun _ => pat_cast _ _⟩
    rw [realVal, ← wrap, wrap_of_range (width_pos ht) ⟨hmin, hmax⟩]

/-- Settles O22: the whole part is the floor, and the fraction is the remainder it leaves. -/
theorem readingValueIsExact : Obligations.ReadingValueIsExact := by
  intro t p _ _
  have hfrac : fractional t p = (getFrac t p : ℚ) / 2 ^ t.f.toNat := by rw [fractional_eq, getFrac_eq_mod]
  have hdiv : (getWhole t p : ℚ) * 2 ^ t.f.toNat + getFrac t p = val t p := by
    have h := Int.mul_ediv_add_emod (val t p) (2 ^ t.f.toNat)
    rw [← getFrac_eq_emod, ← getWhole, mul_comm] at h
    exact_mod_cast h
  refine ⟨getWhole_eq_floor t p, getFrac_eq_emod t p, hfrac, ?_⟩
  rw [toReal, hfrac, realVal, ← hdiv]
  field_simp

/-- Settles O23: without its point the string is the pattern's digits, which read back as the pattern. -/
theorem bitstringRoundTrip : Obligations.BitstringRoundTrip := by
  refine ⟨fun t p hp => ?_, by decide⟩
  rw [toBitstring_eraseIdx, readBits_bitChars, Nat.mod_eq_of_lt hp]
  exact ⟨length_toBitstring t p, toBitstring_point t p, fun _ => mem_bitChars, rfl, fun hw => head_toBitstring hw p,
    fun hf => getLast_toBitstring hf p⟩

end Sys2Proof.Machine
end

section
/-! SUPPORT. Alignment: a shape inside another, the range and the number of an aligned value there, and the promoted
shape as one that both operand shapes are inside (R60, R64, R65). -/

namespace Sys2Proof.Machine

/-- Shape `t` is inside `r`: no field of `t` is larger, and the signedness is the same. -/
structure Inside (t r : Shape) : Prop where
  w : t.w.toNat ≤ r.w.toNat
  f : t.f.toNat ≤ r.f.toNat
  s : t.s = r.s

theorem inside_promote_left {a b : Shape} (hs : a.s = b.s) : Inside a (promote a b) where
  w := by rw [promote_w_toNat]; exact le_max_left _ _
  f := by rw [promote_f_toNat]; exact le_max_left _ _
  s := by rw [promote_s, ← hs, Bool.and_self]

theorem inside_promote_right {a b : Shape} (hs : a.s = b.s) : Inside b (promote a b) := by
  rw [promote_comm]
  exact inside_promote_left hs.symm

/-- `min_val` by the bits below the sign bit, none when unsigned. -/
theorem minVal_eq (t : Shape) : minVal t = -(t.s.toNat * 2 ^ (width t - t.s.toNat)) := by
  unfold minVal
  cases t.s <;> simp

/-- Shifting a value left by the places between the points leaves it in the larger range (R65). -/
theorem aligned_range {t r : Shape} {p : Nat} (h : Inside t r) (hn : 1 ≤ width t) (hp : p < 2 ^ width t) :
    minVal r ≤ aligned r t p ∧ aligned r t p ≤ maxVal r := by
  obtain ⟨hmin, hmax⟩ := val_range hn hp
  rw [minVal_eq] at hmin ⊢
  rw [maxVal_eq] at hmax ⊢
  rw [← h.s, aligned]
  have hroom : width t - t.s.toNat + (r.f.toNat - t.f.toNat) ≤ width r - t.s.toNat := by
    have hs := t.s.toNat_lt
    have hw := h.w
    have hf := h.f
    simp only [width] at hn ⊢
    omega
  have hscale : (2 : Int) ^ (width t - t.s.toNat) * 2 ^ (r.f.toNat - t.f.toNat) ≤ 2 ^ (width r - t.s.toNat) := by
    rw [← pow_add]
    exact pow_le_pow_right₀ one_le_two hroom
  have hshift : (0 : Int) < 2 ^ (r.f.toNat - t.f.toNat) := by positivity
  have hsign : (0 : Int) ≤ t.s.toNat := Int.natCast_nonneg _
  constructor
  · calc -((t.s.toNat : Int) * 2 ^ (width r - t.s.toNat))
        ≤ -(t.s.toNat * (2 ^ (width t - t.s.toNat) * 2 ^ (r.f.toNat - t.f.toNat))) :=
          neg_le_neg (mul_le_mul_of_nonneg_left hscale hsign)
      _ = -(t.s.toNat * 2 ^ (width t - t.s.toNat)) * 2 ^ (r.f.toNat - t.f.toNat) := by ring
      _ ≤ val t p * 2 ^ (r.f.toNat - t.f.toNat) := mul_le_mul_of_nonneg_right hmin hshift.le
  · calc val t p * 2 ^ (r.f.toNat - t.f.toNat)
        ≤ (2 ^ (width t - t.s.toNat) - 1) * 2 ^ (r.f.toNat - t.f.toNat) := mul_le_mul_of_nonneg_right hmax hshift.le
      _ = 2 ^ (width t - t.s.toNat) * 2 ^ (r.f.toNat - t.f.toNat) - 2 ^ (r.f.toNat - t.f.toNat) := sub_one_mul _ _
      _ ≤ 2 ^ (width r - t.s.toNat) - 1 := sub_le_sub hscale hshift

/-- An aligned value means at scale `2^-mf` what the operand means at its own scale (R64). -/
theorem aligned_div {t r : Shape} (hf : t.f.toNat ≤ r.f.toNat) (p : Nat) :
    (aligned r t p : ℚ) / 2 ^ r.f.toNat = realVal t p := by
  have hsplit : (2 : ℚ) ^ r.f.toNat = 2 ^ (r.f.toNat - t.f.toNat) * 2 ^ t.f.toNat := by
    rw [← pow_add, Nat.sub_add_cancel hf]
  rw [realVal, aligned, hsplit]
  push_cast
  field_simp

theorem alignedA_div (a b : Shape) (s : State) :
    (alignedA a b s : ℚ) / 2 ^ (promote a b).f.toNat = realVal a (operandA a s) :=
  aligned_div (by rw [promote_f_toNat]; exact le_max_left _ _) _

theorem alignedB_div (a b : Shape) (s : State) :
    (alignedB a b s : ℚ) / 2 ^ (promote a b).f.toNat = realVal b (operandB b s) :=
  aligned_div (by rw [promote_f_toNat]; exact le_max_right _ _) _

theorem alignedA_range {a b : Shape} (ha : legalShape a = true) (hs : a.s = b.s) (s : State) :
    minVal (promote a b) ≤ alignedA a b s ∧ alignedA a b s ≤ maxVal (promote a b) :=
  aligned_range (inside_promote_left hs) (width_pos ha) (operand_lt _ _)

theorem alignedB_range {a b : Shape} (hb : legalShape b = true) (hs : a.s = b.s) (s : State) :
    minVal (promote a b) ≤ alignedB a b s ∧ alignedB a b s ≤ maxVal (promote a b) :=
  aligned_range (inside_promote_right hs) (width_pos hb) (operand_lt _ _)

/-- A value of the range is written as a pattern that means it. -/
theorem realVal_pat_of_range {t : Shape} (hn : 1 ≤ width t) {v : Int} (hv : minVal t ≤ v ∧ v ≤ maxVal t) :
    realVal t (pat (width t) v) = v / 2 ^ t.f.toNat := by
  rw [realVal, ← wrap, wrap_of_range hn hv]

@[simp] theorem promote_self (t : Shape) : promote t t = t := by
  simp [promote]

@[simp] theorem aligned_self (t : Shape) (p : Nat) : aligned t t p = val t p := by
  simp [aligned]

end Sys2Proof.Machine
end

section
/-! The statements about alignment (30_encoding.md section 5, 40_promotion_saturation.md section 2). -/

namespace Sys2Proof.Machine

/-- Settles O14: the promoted fractional width is the larger one, so each shift makes up the difference. -/
theorem alignmentScalesToLargerFraction : Obligations.AlignmentScalesToLargerFraction := by
  intro a b s
  rw [← promote_f_toNat, alignedA_div, alignedB_div]
  have hmax := promote_f_toNat a b
  exact ⟨by omega, rfl, rfl, rfl, rfl⟩

/-- Settles O15: an aligned operand is in the promoted range, where writing and reading are inverse. -/
theorem alignmentLosesNothing : Obligations.AlignmentLosesNothing := by
  intro a b s ha hb hs
  have hn : 1 ≤ width (promote a b) := (width_pos ha).trans (width_le_width_promote a b)
  have hA := alignedA_range ha hs s
  have hB := alignedB_range hb hs s
  refine ⟨hA, hB, ?_, ?_⟩
  · rw [realVal_pat_of_range hn hA, alignedA_div]
  · rw [realVal_pat_of_range hn hB, alignedB_div]

/-- Settles O16: a shape promoted with itself is itself, so no operand is shifted. -/
theorem equalShapeAddShiftsNothing : Obligations.EqualShapeAddShiftsNothing := by
  intro t s
  have hA : alignedA t t s = val t (operandA t s) := by rw [alignedA, promote_self, aligned_self]
  have hB : alignedB t t s = val t (operandB t s) := by rw [alignedB, promote_self, aligned_self]
  refine ⟨rfl, rfl, promote_self t, hA, hB, fun hv ht => ?_⟩
  have hwidth : width (promote t t) ≤ 64 := by
    rw [promote_self]
    exact ((legalShape_iff t).1 ht).2
  have hw : WidthsFit .add t t := (widthsFit_iff_legalShape .add t t).2 ⟨ht, ht, hwidth, by simp⟩
  refine ⟨_, exec_request_of_legal (op := .add) hv hw rfl (by simp), ?_⟩
  rw [requestPattern, hA, hB, promote_self]
  rfl

end Sys2Proof.Machine
end

section
/-! SUPPORT. The comparator of ADD on two values of the result's range (R65, R67, R68). -/

namespace Sys2Proof.Machine

theorem minVal_nonpos (t : Shape) : minVal t ≤ 0 := by
  rw [minVal_eq, neg_nonpos]
  positivity

theorem minVal_of_unsigned {t : Shape} (hs : t.s = false) : minVal t = 0 := by
  rw [minVal, if_neg (by simp [hs])]

/-- A range reaches no lower than half the number of patterns. -/
theorem neg_two_pow_le_two_mul_minVal {t : Shape} (hn : 1 ≤ width t) : -2 ^ width t ≤ 2 * minVal t := by
  have htop := two_pow_width_eq hn
  have hpos : (0 : Int) < 2 ^ width t := by positivity
  unfold minVal
  split <;> omega

/-- What is less than one range below the range comes back one range higher. -/
theorem wrap_of_below {r : Shape} (hn : 1 ≤ width r) {v : Int} (hlow : minVal r ≤ v + 2 ^ width r)
    (hv : v < minVal r) : wrap r v = v + 2 ^ width r := by
  have hlen := maxVal_sub_minVal hn
  have hmod : wrap r v % 2 ^ width r = (v + 2 ^ width r) % 2 ^ width r := by rw [wrap_emod, Int.add_emod_right]
  exact eq_of_range_of_emod_eq hn (wrap_range hn v) ⟨hlow, by omega⟩ hmod

/-- The comparator fires above the range, and within it beside a negative addend; below the range it does not (R68). -/
theorem ovfAdd_iff_of_range {r : Shape} (hn : 1 ≤ width r) {x y : Int} (hx : minVal r ≤ x ∧ x ≤ maxVal r)
    (hy : minVal r ≤ y ∧ y ≤ maxVal r) :
    ovfAdd r x y = true ↔ maxVal r < x + y ∨ minVal r ≤ x + y ∧ (x < 0 ∨ y < 0) := by
  have hlen := maxVal_sub_minVal hn
  have hhalf := neg_two_pow_le_two_mul_minVal hn
  have hmax := maxVal_nonneg r
  have hmin := minVal_nonpos r
  rw [ovfAdd_iff]
  obtain hbelow | hlow := lt_or_ge (x + y) (minVal r)
  · rw [wrap_of_below hn (by omega) hbelow]
    omega
  · obtain habove | hhigh := lt_or_ge (maxVal r) (x + y)
    · omega
    · rw [wrap_of_range hn ⟨hlow, hhigh⟩]
      omega

theorem addPattern_saturating (r : Shape) (x y : Int) :
    addPattern true r x y = if ovfAdd r x y = true then (maxVal r).toNat else pat (width r) (x + y) := by
  cases h : ovfAdd r x y <;> simp [addPattern, h]

end Sys2Proof.Machine
end

section
/-! SUPPORT. The comparator of MUL on two values of the result's range, and the pattern it makes the clamper give
(R69, R70, R100). -/

namespace Sys2Proof.Machine

/-- The comparator fires when the intermediate is not below bit `k` (R69). -/
theorem ovfMul_iff_le (r : Shape) (x y : Int) :
    ovfMul r x y = true ↔ 2 ^ ovfMulPos r ≤ x * y % 2 ^ (2 * width r) := by
  have hpos : (0 : Int) < 2 ^ ovfMulPos r := by positivity
  have hquot : 0 ≤ x * y % 2 ^ (2 * width r) / 2 ^ ovfMulPos r :=
    Int.ediv_nonneg (Int.emod_nonneg _ (by positivity)) hpos.le
  rw [ovfMul_iff, ← one_mul (2 ^ ovfMulPos r : Int), ← Int.le_ediv_iff_mul_le hpos, one_mul]
  omega

/-- Above `max_val` after the rescaling is at bit `k` or above before it (R70). -/
theorem maxVal_lt_rescaled_iff {r : Shape} (hn : 1 ≤ width r) (p : Int) :
    maxVal r < p / 2 ^ r.f.toNat ↔ 2 ^ ovfMulPos r ≤ p := by
  have hk : ovfMulPos r = width r - r.s.toNat + r.f.toNat := by
    have hs := r.s.toNat_lt
    simp only [ovfMulPos, width] at hn ⊢
    omega
  rw [maxVal_eq, Int.sub_one_lt_iff, Int.le_ediv_iff_mul_le (by positivity), ← pow_add, hk]

theorem abs_lt_of_range {r : Shape} (hn : 1 ≤ width r) {x : Int} (hx : minVal r ≤ x ∧ x ≤ maxVal r) :
    |x| < 2 ^ width r := by
  have hlen := maxVal_sub_minVal hn
  have hhalf := neg_two_pow_le_two_mul_minVal hn
  have hmin := minVal_nonpos r
  rw [abs_lt]
  omega

section

variable {r : Shape} {x y : Int} (hn : 1 ≤ width r) (hx : minVal r ≤ x ∧ x ≤ maxVal r)
  (hy : minVal r ≤ y ∧ y ≤ maxVal r)
include hn hx hy

/-- The intermediate is wide enough for every product of values of the range (R69, R101). -/
theorem mul_lt_of_range : x * y < 2 ^ (2 * width r) := by
  have habs := mul_lt_mul'' (abs_lt_of_range hn hx) (abs_lt_of_range hn hy) (abs_nonneg x) (abs_nonneg y)
  rw [← abs_mul, ← pow_add, ← two_mul] at habs
  exact (le_abs_self _).trans_lt habs

/-- A product of two signed values has at most a quarter of the intermediate's patterns below zero. -/
theorem neg_two_pow_le_four_mul_of_signed (hs : r.s = true) : -2 ^ (2 * width r) ≤ 4 * (x * y) := by
  have htop := two_pow_width_eq hn
  have hquarter : (2 : Int) ^ (2 * width r) = 4 * (2 ^ (width r - 1) * 2 ^ (width r - 1)) := by
    rw [two_mul, pow_add, htop]
    ring
  simp only [minVal, maxVal, hs, if_true] at hx hy
  have hsize : |x * y| ≤ 2 ^ (width r - 1) * 2 ^ (width r - 1) := by
    rw [abs_mul]
    exact mul_le_mul (abs_le.2 (by omega)) (abs_le.2 (by omega)) (abs_nonneg y) (by positivity)
  have hlow := neg_abs_le (x * y)
  omega

/-- The comparator on a product that is not negative (R70). -/
theorem ovfMul_iff_of_nonneg (hxy : 0 ≤ x * y) : ovfMul r x y = true ↔ 2 ^ ovfMulPos r ≤ x * y := by
  rw [ovfMul_iff_le, Int.emod_eq_of_lt hxy (mul_lt_of_range hn hx hy)]

/-- The comparator fires on every negative product: two's complement sets the top bits of the intermediate (R70). -/
theorem ovfMul_of_neg (hxy : x * y < 0) : ovfMul r x y = true := by
  have hs : r.s = true := by
    by_contra hs
    have hmin := minVal_of_unsigned (Bool.eq_false_iff.2 hs)
    exact hxy.not_ge (mul_nonneg (hmin ▸ hx.1) (hmin ▸ hy.1))
  have hquarter := neg_two_pow_le_four_mul_of_signed hn hx hy hs
  have hk : (2 : Int) * 2 ^ ovfMulPos r ≤ 2 ^ (2 * width r) := by
    rw [← pow_succ']
    refine pow_le_pow_right₀ one_le_two ?_
    simp only [ovfMulPos, width, hs, Bool.toNat_true] at hn ⊢
    omega
  have hpos : (0 : Int) < 2 ^ (2 * width r) := by positivity
  rw [ovfMul_iff_le, ← Int.add_emod_right, Int.emod_eq_of_lt (by omega) (by omega)]
  omega

end

/-- The sign-bit clear leaves `max_val` as it is: its sign bit is clear (R72, R100). -/
theorem clearSign_maxVal {r : Shape} (hs : r.s = true) : clearSign (width r) (maxVal r).toNat = (maxVal r).toNat := by
  rw [clearSign_eq_ite (maxVal_toNat_lt r), maxVal_testBit, if_neg (by simp [hs])]

/-- When the comparator fires a saturating MUL gives `max_val`, whatever the sign bits (R71, R100). -/
theorem mulPattern_of_ovf {r : Shape} {x y : Int} (h : ovfMul r x y = true) (same : Bool) :
    mulPattern true r same x y = (maxVal r).toNat := by
  have hclamped : mulClamped true r x y = (maxVal r).toNat := by rw [mulClamped, h, clamp_saturate]
  rw [mulPattern_eq, hclamped]
  split_ifs with hclear
  · exact clearSign_maxVal (Bool.and_elim_left hclear)
  · rfl

end Sys2Proof.Machine
end

section
/-! The statements about the comparators (40_promotion_saturation.md section 3). -/

namespace Sys2Proof.Machine

/-- Settles O25: the aligned operands are in the promoted range, where the comparator of ADD is known. -/
theorem addComparatorByCases : Obligations.AddComparatorByCases := by
  intro a b s hw hs
  obtain ⟨ha, hb, -⟩ := (widthsFit_iff_legalShape .add a b).1 hw
  have hn : 1 ≤ width (promote a b) := width_pos (legalShape_promote hw)
  have hA := alignedA_range ha hs s
  have hB := alignedB_range hb hs s
  have hmax := maxVal_nonneg (promote a b)
  have hmin := minVal_nonpos (promote a b)
  have hovf := ovfAdd_iff_of_range hn hA hB
  refine ⟨fun hu => hovf.trans ?unsigned, fun _ => ⟨fun hx hy => hovf.trans ?nonneg, fun hx hy => hovf.2 ?negativeA,
    fun hx hy => hovf.2 ?negativeB, fun hx hy => hovf.trans ?negative, fun hsat hneg => ?saturating⟩⟩
  case unsigned =>
    have hzero := minVal_of_unsigned (t := promote a b) (by simp [hu])
    omega
  case saturating =>
    have hanswer : exec (.add a b) s = .next (respondsWith s (requestPattern .add a b s) (promote a b)) :=
      exec_request_of_legal (op := .add) (by rw [hsat]) hw hs (by simp)
    have hclamp : ovfAdd (promote a b) (alignedA a b s) (alignedB a b s) = true ↔
        ¬alignedA a b s + alignedB a b s < minVal (promote a b) := hovf.trans (by omega)
    rw [hanswer, requestPattern, policy, hsat, addPattern_saturating]
    simp only [hclamp, ite_not]
    rfl
  all_goals omega

/-- Settles O26: a product that is not negative is compared as it stands, and a negative one has its top bits set. -/
theorem mulComparatorByCases : Obligations.MulComparatorByCases := by
  intro a b s hw hs
  obtain ⟨ha, hb, -⟩ := (widthsFit_iff_legalShape .mul a b).1 hw
  have hn : 1 ≤ width (promote a b) := width_pos (legalShape_promote hw)
  have hA := alignedA_range ha hs s
  have hB := alignedB_range hb hs s
  have hsign : (promote a b).s = a.s := (inside_promote_left hs).s.symm
  refine ⟨fun hu => ?unsigned, fun hsigned hnonneg => ?nonneg, fun hsigned hneg => ⟨ovfMul_of_neg hn hA hB hneg, ?_⟩⟩
  case unsigned =>
    have hmin := minVal_of_unsigned (hsign.trans hu)
    have hk : ovfMulPos (promote a b) = (promote a b).w.toNat + 2 * (promote a b).f.toNat := by
      rw [ovfMulPos, hsign, hu, Bool.toNat_false, Nat.sub_zero]
    have hovf := ovfMul_iff_of_nonneg hn hA hB (mul_nonneg (hmin ▸ hA.1) (hmin ▸ hB.1))
    refine ⟨hk ▸ hovf, hovf.trans (maxVal_lt_rescaled_iff hn _).symm, fun hzero => ?_⟩
    rw [Bool.eq_false_iff, ne_eq, hovf, not_le]
    have hwidth : ovfMulPos (promote a b) = 2 * width (promote a b) := by simp [hk, width, hzero]
    exact hwidth ▸ mul_lt_of_range hn hA hB
  case nonneg =>
    have hk : ovfMulPos (promote a b) = (promote a b).w.toNat + 2 * (promote a b).f.toNat - 1 := by
      rw [ovfMulPos, hsign, hsigned, Bool.toNat_true]
    have hovf := ovfMul_iff_of_nonneg hn hA hB hnonneg
    exact ⟨hk ▸ hovf, hovf.trans (maxVal_lt_rescaled_iff hn _).symm⟩
  · intro hsat
    have hanswer : exec (.mul a b) s = .next (respondsWith s (requestPattern .mul a b s) (promote a b)) :=
      exec_request_of_legal (op := .mul) (by rw [hsat]) hw hs (by simp)
    rw [hanswer, requestPattern, policy, hsat, mulPattern_of_ovf (ovfMul_of_neg hn hA hB hneg)]

end Sys2Proof.Machine
end

section
/-! SUPPORT. A legal request's result, and patterns as the numbers they mean in the result's shape (R18, R47). -/

namespace Sys2Proof.Machine

/-- A legal request, other than a DIV by zero, has its operation's pattern in the promoted shape (R46, R47). -/
theorem exec_request_pattern_of_legal {op : Op} {a b : Shape} {s : State} (hv : s.cfg.valid = true)
    (hw : WidthsFit op a b) (hs : a.s = b.s) (hz : op = .div → operandB b s ≠ 0) :
    ∃ t, exec (requestOf op a b) s = .next t ∧ t.out.err = 0 ∧ shapeOfFmt t.out.rFmt = promote a b ∧
      t.out.rRaw.toNat = requestPattern op a b s := by
  have hexec := exec_request_of_legal hv hw hs hz
  exact ⟨_, hexec, rfl, result_shape hexec rfl, result_rRaw_toNat hexec rfl⟩

/-- A value from zero to `max_val` is its own pattern. -/
theorem pat_cast_of_le_maxVal {r : Shape} {v : Int} (h0 : 0 ≤ v) (hmax : v ≤ maxVal r) :
    (pat (width r) v : Int) = v := by
  have hlt := maxVal_toNat_lt r
  zify at hlt
  rw [Int.toNat_of_nonneg (maxVal_nonneg r)] at hlt
  rw [pat_cast, Int.emod_eq_of_lt h0 (by omega)]

theorem maxVal_toNat_eq_pat (r : Shape) : (maxVal r).toNat = pat (width r) (maxVal r) := by
  zify
  rw [Int.toNat_of_nonneg (maxVal_nonneg r), pat_cast_of_le_maxVal (maxVal_nonneg r) le_rfl]

/-- A pattern means the value written, up to a multiple of `2^W` (00_scope.md section 5.2). -/
theorem realVal_pat (r : Shape) (v : Int) :
    ∃ k : Int, realVal r (pat (width r) v) = (v : ℚ) / 2 ^ r.f.toNat + k * 2 ^ r.w.toNat := by
  obtain ⟨k, hk⟩ := two_pow_dvd_wrap_sub r v
  have hwrap : (wrap r v : ℚ) = v + 2 ^ r.w.toNat * 2 ^ r.f.toNat * k := by
    rw [width, pow_add] at hk
    exact_mod_cast eq_add_of_sub_eq' hk
  refine ⟨k, ?_⟩
  rw [realVal, ← wrap, hwrap]
  field_simp

end Sys2Proof.Machine
end

section
/-! SUPPORT. The pattern of ADD under each policy, for two values of the result's range (R68, R80). -/

namespace Sys2Proof.Machine

theorem addPattern_wrapping (r : Shape) (x y : Int) : addPattern false r x y = pat (width r) (x + y) := clamp_wrap _ _ _

section

variable {r : Shape} {x y : Int} (hn : 1 ≤ width r) (hx : minVal r ≤ x ∧ x ≤ maxVal r)
  (hy : minVal r ≤ y ∧ y ≤ maxVal r)
include hn hx hy

/-- Of addends that are not negative a saturating ADD gives the sum, at most `max_val` (R81). -/
theorem addPattern_of_nonneg (hx0 : 0 ≤ x) (hy0 : 0 ≤ y) :
    addPattern true r x y = pat (width r) (min (x + y) (maxVal r)) := by
  have hovf : ovfAdd r x y = true ↔ maxVal r < x + y := (ovfAdd_iff_of_range hn hx hy).trans (by omega)
  rw [addPattern_saturating]
  split_ifs with h
  · rw [min_eq_right (hovf.1 h).le, maxVal_toNat_eq_pat]
  · rw [min_eq_left (not_lt.1 fun habove => h (hovf.2 habove))]

/-- Beside a negative addend a saturating ADD gives `max_val`, but for a sum below the range, which wraps (R81). -/
theorem addPattern_of_neg (hneg : x < 0 ∨ y < 0) :
    (addPattern true r x y : Int) =
      if x < 0 ∧ y < 0 ∧ x + y < minVal r then x + y + 2 ^ width r else maxVal r := by
  have hmax := maxVal_nonneg r
  have hmin := minVal_nonpos r
  have hhalf := neg_two_pow_le_two_mul_minVal hn
  have hovf : ovfAdd r x y = true ↔ ¬(x < 0 ∧ y < 0 ∧ x + y < minVal r) :=
    (ovfAdd_iff_of_range hn hx hy).trans (by omega)
  rw [addPattern_saturating]
  simp only [hovf, ite_not]
  split_ifs with h
  · rw [pat_cast, ← Int.add_emod_right, Int.emod_eq_of_lt (by omega) (by omega)]
  · exact Int.toNat_of_nonneg hmax

end

end Sys2Proof.Machine
end

section
/-! The statement about the laws of ADD (41_add.md). -/

namespace Sys2Proof.Machine

/-- Settles O33: the aligned operands are the operands' numbers at scale `2^-mf`, and their sum is clamped as the
comparator's cases say. -/
theorem addLaws : Obligations.AddLaws := by
  intro a b s hv hw hs
  obtain ⟨ha, hb, -⟩ := (widthsFit_iff_legalShape .add a b).1 hw
  have hn : 1 ≤ width (promote a b) := width_pos (legalShape_promote hw)
  have hA := alignedA_range ha hs s
  have hB := alignedB_range hb hs s
  have hmin := minVal_nonpos (promote a b)
  have hmax := maxVal_nonneg (promote a b)
  obtain ⟨t, hexec, -, hshape, hraw⟩ := exec_request_pattern_of_legal (op := .add) hv hw hs (by simp)
  refine ⟨t, hexec, hshape, fun hwrap => ?wrapping, fun hsat hnonneg => ?nonneg, fun hsat _ hneg => ?negative,
    fun hsat hab hop hdouble => ?doubled⟩ <;>
    rw [hraw, requestPattern, policy]
  case wrapping =>
    rw [hwrap, addPattern_wrapping, pat_cast, ← alignedA_div a b, ← alignedB_div a b, ← add_div]
    exact ⟨by exact_mod_cast realVal_pat (promote a b) (alignedA a b s + alignedB a b s), rfl⟩
  case nonneg =>
    have hboth : 0 ≤ alignedA a b s ∧ 0 ≤ alignedB a b s := by
      obtain hu | hboth := hnonneg
      · have hzero := minVal_of_unsigned (t := promote a b) (by simp [hu])
        omega
      · exact hboth
    rw [hsat, addPattern_of_nonneg hn hA hB hboth.1 hboth.2, realVal_pat_of_range hn (by omega), ← alignedA_div a b,
      ← alignedB_div a b, ← add_div, min_div_div_right (by positivity : (0 : ℚ) ≤ 2 ^ (promote a b).f.toNat)]
    push_cast
    rfl
  case negative => rw [hsat, addPattern_of_neg hn hA hB hneg]
  case doubled =>
    subst hab
    have hx : alignedA a a s = val a (operandA a s) := by rw [alignedA, promote_self, aligned_self]
    have hy : alignedB a a s = val a (operandA a s) := by rw [alignedB, promote_self, aligned_self, hop]
    rw [promote_self] at hn hA hmin hmax ⊢
    rw [hx] at hA ⊢
    rw [hy, hsat, addPattern_of_nonneg hn hA hA (by omega) (by omega), min_eq_right (by omega),
      pat_cast_of_le_maxVal hmax le_rfl]

end Sys2Proof.Machine
end

section
/-! SUPPORT. The promoted shape as an operand shape of the next request, where a result is read back (R53, R60). -/

namespace Sys2Proof.Machine

/-- A promoted shape promoted with operand B's again is itself. -/
theorem promote_promote_right (a b : Shape) : promote (promote a b) b = promote a b := by
  have hw : (promote (promote a b) b).w = (promote a b).w :=
    BitVec.eq_of_toNat_eq (by rw [promote_w_toNat, promote_w_toNat, max_assoc, max_self])
  have hf : (promote (promote a b) b).f = (promote a b).f :=
    BitVec.eq_of_toNat_eq (by rw [promote_f_toNat, promote_f_toNat, max_assoc, max_self])
  have hs : (promote (promote a b) b).s = (promote a b).s := by simp
  exact (Shape.mk.injEq ..).mpr ⟨hw, hf, hs⟩

/-- A result's shape fits beside operand B's in an ADD (R132). -/
theorem widthsFit_promote_right {a b : Shape} (hw : WidthsFit .sub a b) : WidthsFit .add (promote a b) b := by
  obtain ⟨-, hb, hle, -⟩ := (widthsFit_iff_legalShape .sub a b).1 hw
  refine (widthsFit_iff_legalShape .add (promote a b) b).2 ⟨legalShape_promote hw, hb, ?_, by simp⟩
  rwa [promote_promote_right]

/-- A pattern on the bus of its own shape is read as it stands (R44). -/
theorem operand_of_lt {t : Shape} {bus : Bus} (h : bus.toNat < 2 ^ width t) : operand t bus = bus.toNat :=
  Nat.mod_eq_of_lt h

/-- Subtracting, wrapping and adding back is the same modulo `2^n` as doing nothing. -/
theorem wrap_sub_add_emod (r : Shape) (x y : Int) : (wrap r (x - y) + y) % 2 ^ width r = x % 2 ^ width r := by
  have h : wrap r (x - y) + y ≡ x - y + y [ZMOD 2 ^ width r] := Int.ModEq.add_right y (wrap_emod r (x - y))
  rwa [sub_add_cancel] at h

end Sys2Proof.Machine
end

section
/-! The statement about the laws of SUB (42_sub.md). -/

namespace Sys2Proof.Machine

/-- Settles O34: the wrapped difference is the exact one modulo `2^nr`, so adding operand B back gives operand A's
residue, and aligned operand A is in the range. -/
theorem subLaws : Obligations.SubLaws := by
  intro a b s hv hw hs
  obtain ⟨ha, -⟩ := (widthsFit_iff_legalShape .sub a b).1 hw
  have hn : 1 ≤ width (promote a b) := width_pos (legalShape_promote hw)
  obtain ⟨t, hexec, -, hshape, hraw⟩ := exec_request_pattern_of_legal (op := .sub) hv hw hs (by simp)
  have hdiff : t.out.rRaw.toNat = pat (width (promote a b)) (alignedA a b s - alignedB a b s) := hraw
  obtain ⟨o, rfl⟩ := exec_request_frame hexec
  refine ⟨_, hexec, hshape, ?difference, fun hwrap => ?addBack⟩
  case difference =>
    rw [hdiff, ← alignedA_div a b, ← alignedB_div a b, ← sub_div]
    exact_mod_cast realVal_pat (promote a b) (alignedA a b s - alignedB a b s)
  case addBack =>
    rw [hshape]
    obtain ⟨u, hexecAdd, herr, hshapeAdd, hrawAdd⟩ := exec_request_pattern_of_legal (op := .add) (a := promote a b)
      (s := { setOut o s with port := { (setOut o s).port with aRaw := o.rRaw } }) hv (widthsFit_promote_right hw)
      (inside_promote_right hs).s.symm (by simp)
    refine ⟨u, hexecAdd, herr, hshapeAdd.trans (promote_promote_right a b), ?_⟩
    have hA : operand (promote a b) o.rRaw = pat (width (promote a b)) (alignedA a b s - alignedB a b s) :=
      (operand_of_lt (hdiff ▸ pat_lt _ _)).trans hdiff
    have hsum : u.out.rRaw.toNat = pat (width (promote a b))
        (wrap (promote a b) (alignedA a b s - alignedB a b s) + alignedB a b s) := by
      rw [hrawAdd]
      simp only [requestPattern, policy, alignedA, alignedB, operandA, operandB, setOut_cfg, hwrap,
        promote_promote_right, aligned_self, hA]
      rfl
    rw [hsum, pat_congr (wrap_sub_add_emod _ _ _), realVal_pat_of_range hn (alignedA_range ha hs s), alignedA_div]

end Sys2Proof.Machine
end

section
/-! SUPPORT. Sign bits as signs, and the pattern of MUL by sign and policy, for two values of the result's range (R69,
R70, R100). -/

namespace Sys2Proof.Machine

/-- The sign bit of an operand is set when its value, aligned or not, is negative (R19, R64). -/
theorem signBit_operand_eq (r t : Shape) (bus : Bus) :
    signBit t (operand t bus) = decide (aligned r t (operand t bus) < 0) := by
  have hlt := operand_lt t bus
  have hpos : (0 : Int) < 2 ^ (r.f.toNat - t.f.toNat) := by positivity
  have hshift : aligned r t (operand t bus) < 0 ↔ val t (operand t bus) < 0 := by
    rw [aligned, ← not_le, mul_nonneg_iff_of_pos_right hpos, not_le]
  zify at hlt
  rw [Bool.eq_iff_iff, decide_eq_true_iff, signBit_operand_iff, hshift, val_eq_ite]
  split_ifs with htop
  · exact iff_of_true htop (by omega)
  · exact iff_of_false htop (by omega)

/-- The sign bits of two operands agree when their signs do. -/
theorem signBit_eq_iff (a b : Shape) (s : State) :
    signBit a (operandA a s) = signBit b (operandB b s) ↔ (alignedA a b s < 0 ↔ alignedB a b s < 0) := by
  rw [operandA, operandB, signBit_operand_eq (promote a b), signBit_operand_eq (promote a b)]
  exact decide_eq_decide

/-- Operands of one sign bit have a product that is not negative. -/
theorem mul_nonneg_of_signBit_eq {a b : Shape} {s : State}
    (h : signBit a (operandA a s) = signBit b (operandB b s)) : 0 ≤ alignedA a b s * alignedB a b s := by
  have hsign := (signBit_eq_iff a b s).1 h
  obtain hneg | hnonneg := lt_or_ge (alignedA a b s) 0
  · exact mul_nonneg_of_nonpos_of_nonpos hneg.le (hsign.1 hneg).le
  · exact mul_nonneg hnonneg (not_lt.1 fun hneg => hnonneg.not_gt (hsign.2 hneg))

/-- Operands of two sign bits have a product that is not positive. -/
theorem mul_nonpos_of_signBit_ne {a b : Shape} {s : State}
    (h : signBit a (operandA a s) ≠ signBit b (operandB b s)) : alignedA a b s * alignedB a b s ≤ 0 := by
  have hsign := mt (signBit_eq_iff a b s).2 h
  obtain hneg | hnonneg := lt_or_ge (alignedA a b s) 0
  · exact mul_nonpos_of_nonpos_of_nonneg hneg.le (not_lt.1 fun hnegB => hsign (iff_of_true hneg hnegB))
  · exact mul_nonpos_of_nonneg_of_nonpos hnonneg (not_le.1 fun hB => hsign (iff_of_false hnonneg.not_gt hB.not_gt)).le

/-- Unsigned operands have no sign bit. -/
theorem signBit_of_unsigned {t : Shape} (hs : t.s = false) (p : Nat) : signBit t p = false := by
  rw [signBit, hs, Bool.false_and]

theorem mulClamped_wrapping (r : Shape) (x y : Int) :
    mulClamped false r x y = pat (width r) (x * y / 2 ^ r.f.toNat) := clamp_wrap _ _ _

theorem mulPattern_no_clear {r : Shape} {same : Bool} (h : r.s = false ∨ same = false) (sat : Bool) (x y : Int) :
    mulPattern sat r same x y = mulClamped sat r x y := by
  rw [mulPattern_eq, if_neg (by obtain h | h := h <;> simp [h])]

/-- For equal sign bits of a signed request the result is the clamped pattern below its sign bit (R100). -/
theorem mulPattern_clear {r : Shape} (hn : 1 ≤ width r) (hs : r.s = true) (sat : Bool) (x y : Int) :
    mulPattern sat r true x y = mulClamped sat r x y % 2 ^ (width r - 1) := by
  rw [mulPattern_eq, hs, Bool.true_and, if_pos rfl, clearSign_eq_mod _ _ hn]

section

variable {r : Shape} {x y : Int} (hn : 1 ≤ width r) (hx : minVal r ≤ x ∧ x ≤ maxVal r)
  (hy : minVal r ≤ y ∧ y ≤ maxVal r)
include hn hx hy

/-- The comparator on a product that is not negative, after the rescaling (R70). -/
theorem ovfMul_iff_maxVal_lt (hxy : 0 ≤ x * y) : ovfMul r x y = true ↔ maxVal r < x * y / 2 ^ r.f.toNat :=
  (ovfMul_iff_of_nonneg hn hx hy hxy).trans (maxVal_lt_rescaled_iff hn _).symm

/-- A rescaled product from zero to `max_val` is the result, whatever the policy and the sign bits (R102). -/
theorem mulPattern_of_le_maxVal (hxy : 0 ≤ x * y) (hmax : x * y / 2 ^ r.f.toNat ≤ maxVal r) (sat same : Bool) :
    mulPattern sat r same x y = pat (width r) (x * y / 2 ^ r.f.toNat) := by
  have hovf : ovfMul r x y = false := by
    rw [Bool.eq_false_iff, ne_eq, ovfMul_iff_maxVal_lt hn hx hy hxy]
    exact hmax.not_gt
  have hclamped : mulClamped sat r x y = pat (width r) (x * y / 2 ^ r.f.toNat) := by
    rw [mulClamped, hovf, clamp_no_overflow]
  by_cases hclear : r.s = true ∧ same = true
  · obtain ⟨hs, rfl⟩ := hclear
    rw [mulPattern_clear hn hs, hclamped]
    refine Nat.mod_eq_of_lt ?_
    zify
    rw [pat_cast_of_le_maxVal (Int.ediv_nonneg hxy (by positivity)) hmax]
    rw [maxVal, if_pos hs] at hmax
    omega
  · rw [mulPattern_no_clear (by rwa [not_and_or, Bool.not_eq_true, Bool.not_eq_true] at hclear), hclamped]

/-- A product that is not negative saturates to `max_val` from above (R102). -/
theorem mulPattern_of_nonneg (hxy : 0 ≤ x * y) (same : Bool) :
    (mulPattern true r same x y : Int) = min (x * y / 2 ^ r.f.toNat) (maxVal r) := by
  have hquot : 0 ≤ x * y / 2 ^ r.f.toNat := Int.ediv_nonneg hxy (by positivity)
  obtain hmax | habove := le_or_gt (x * y / 2 ^ r.f.toNat) (maxVal r)
  · rw [mulPattern_of_le_maxVal hn hx hy hxy hmax, pat_cast_of_le_maxVal hquot hmax, min_eq_left hmax]
  · rw [mulPattern_of_ovf ((ovfMul_iff_maxVal_lt hn hx hy hxy).2 habove), Int.toNat_of_nonneg (maxVal_nonneg r),
      min_eq_right habove.le]

/-- A product that is not positive saturates to `max_val`, but for zero (R102). -/
theorem mulPattern_of_nonpos (hxy : x * y ≤ 0) (same : Bool) :
    (mulPattern true r same x y : Int) = if x * y = 0 then 0 else maxVal r := by
  split_ifs with hzero
  · rw [mulPattern_of_nonneg hn hx hy hzero.ge, hzero, Int.zero_ediv, min_eq_left (maxVal_nonneg r)]
  · rw [mulPattern_of_ovf (ovfMul_of_neg hn hx hy (lt_of_le_of_ne hxy hzero)), Int.toNat_of_nonneg (maxVal_nonneg r)]

end

/-- The product of two operands' numbers at scale `2^-mf` is the exact product before the rescaling (R100). -/
theorem realVal_mul_scaled (a b : Shape) (s : State) :
    realVal a (operandA a s) * realVal b (operandB b s) * 2 ^ (promote a b).f.toNat =
      ((alignedA a b s * alignedB a b s : Int) : ℚ) / 2 ^ (promote a b).f.toNat := by
  rw [← alignedA_div a b, ← alignedB_div a b]
  push_cast
  field_simp

/-- The floor division of the rescaling is the floor of the product of the operands' numbers (R100). -/
theorem floor_realVal_mul_scaled (a b : Shape) (s : State) :
    ⌊realVal a (operandA a s) * realVal b (operandB b s) * 2 ^ (promote a b).f.toNat⌋ =
      alignedA a b s * alignedB a b s / 2 ^ (promote a b).f.toNat := by
  have h := Rat.floor_intCast_div_natCast (alignedA a b s * alignedB a b s) (2 ^ (promote a b).f.toNat)
  rw [realVal_mul_scaled]
  exact_mod_cast h

end Sys2Proof.Machine
end

section
/-! The statement about the laws of MUL (43_mul.md). -/

namespace Sys2Proof.Machine

/-- Settles O35: the sign bits give the sign of the product, which decides what the comparator and the sign-bit clear
do. -/
theorem mulLaws : Obligations.MulLaws := by
  intro a b s hv hw hs
  obtain ⟨ha, hb, -⟩ := (widthsFit_iff_legalShape .mul a b).1 hw
  have hn : 1 ≤ width (promote a b) := width_pos (legalShape_promote hw)
  have hA := alignedA_range ha hs s
  have hB := alignedB_range hb hs s
  have hsign : (promote a b).s = a.s := (inside_promote_left hs).s.symm
  obtain ⟨t, hexec, -, hshape, hraw⟩ := exec_request_pattern_of_legal (op := .mul) hv hw hs (by simp)
  refine ⟨t, hexec, hshape, fun hu hwrap => ?unsignedWrapping, fun hsame hsat => ?saturating,
    fun hsigned hsame => ⟨?topBit, fun hwrap => ?sameWrapping⟩, fun hsigned hdiff => ?different,
    fun hnonneg hle => ?inRange⟩
  all_goals simp only [BitVec.getLsbD, hraw, requestPattern, policy]
  case unsignedWrapping => rw [mulPattern_no_clear (.inl (hsign.trans hu)), hwrap, mulClamped_wrapping, pat_cast]
  case saturating =>
    have heq : signBit a (operandA a s) = signBit b (operandB b s) := by
      obtain hu | heq := hsame
      · rw [signBit_of_unsigned hu, signBit_of_unsigned (hs ▸ hu)]
      · exact heq
    rw [hsat, mulPattern_of_nonneg hn hA hB (mul_nonneg_of_signBit_eq heq)]
  case topBit =>
    rw [hsame, beq_self_eq_true, mulPattern_clear hn (hsign.trans hsigned)]
    exact Nat.testBit_lt_two_pow (Nat.mod_lt _ (by positivity))
  case sameWrapping =>
    rw [hsame, beq_self_eq_true, mulPattern_clear hn (hsign.trans hsigned), hwrap, mulClamped_wrapping]
    push_cast
    rw [pat_cast, Int.emod_emod_of_dvd _ (pow_dvd_pow 2 (Nat.sub_le _ _))]
  case different =>
    rw [beq_false_of_ne hdiff]
    cases hsat : s.cfg.sat with
    | false => rw [mulPattern_no_clear (.inr rfl), mulClamped_wrapping, pat_cast, if_pos rfl]
    | true => exact mulPattern_of_nonpos hn hA hB (mul_nonpos_of_signBit_ne hdiff) false
  case inRange =>
    have hscale : (0 : ℚ) < 2 ^ (promote a b).f.toNat := by positivity
    have hquot0 : 0 ≤ alignedA a b s * alignedB a b s / 2 ^ (promote a b).f.toNat := by
      rw [← floor_realVal_mul_scaled]
      exact Int.floor_nonneg.2 (mul_nonneg hnonneg hscale.le)
    have hquot : alignedA a b s * alignedB a b s / 2 ^ (promote a b).f.toNat ≤ maxVal (promote a b) := by
      rw [← floor_realVal_mul_scaled]
      exact Int.cast_le.1 ((Int.floor_le _).trans ((le_div_iff₀ hscale).1 hle))
    have hprod : 0 ≤ alignedA a b s * alignedB a b s := (Int.ediv_nonneg_iff_of_pos (by positivity)).1 hquot0
    have hmin := minVal_nonpos (promote a b)
    rw [mulPattern_of_le_maxVal hn hA hB hprod hquot, floor_realVal_mul_scaled,
      realVal_pat_of_range hn ⟨hmin.trans hquot0, hquot⟩]

end Sys2Proof.Machine
end

section
/-! SUPPORT. `round_haz`: its product with the divisor, the distance of that from the numerator, and what negation does
to it (00_scope.md section 5.2). -/

namespace Sys2Proof.Machine

/-- The size of `round_haz`. -/
def roundHazAbs (n d : Int) : Int := (2 * |n| + |d|) / (2 * |d|)

/-- Multiplied back by the divisor, `round_haz` has the numerator's sign. -/
theorem roundHaz_mul {d : Int} (hd : d ≠ 0) (n : Int) :
    roundHaz n d * d = if n < 0 then -(roundHazAbs n d * |d|) else roundHazAbs n d * |d| := by
  rw [roundHaz_eq_ite, ← roundHazAbs]
  obtain hneg | hpos := lt_or_gt_of_ne hd
  · have hsign : n < 0 ∧ 0 < d ∨ 0 ≤ n ∧ d < 0 ↔ ¬n < 0 := by omega
    simp only [hsign, ite_not, abs_of_neg hneg]
    split_ifs <;> ring
  · have hsign : n < 0 ∧ 0 < d ∨ 0 ≤ n ∧ d < 0 ↔ n < 0 := by omega
    simp only [hsign, abs_of_pos hpos]
    split_ifs <;> ring

theorem roundHazAbs_nonneg (n d : Int) : 0 ≤ roundHazAbs n d := Int.ediv_nonneg (by positivity) (by positivity)

theorem abs_roundHaz_mul {d : Int} (hd : d ≠ 0) (n : Int) : |roundHaz n d * d| = roundHazAbs n d * |d| := by
  have hnonneg : 0 ≤ roundHazAbs n d * |d| := mul_nonneg (roundHazAbs_nonneg n d) (abs_nonneg d)
  rw [roundHaz_mul hd]
  split_ifs
  · rw [abs_neg, abs_of_nonneg hnonneg]
  · rw [abs_of_nonneg hnonneg]

/-- The distance from the numerator is that of the sizes. -/
theorem abs_roundHaz_mul_sub {d : Int} (hd : d ≠ 0) (n : Int) :
    |roundHaz n d * d - n| = |(roundHazAbs n d * |d| - |n|)| := by
  rw [roundHaz_mul hd]
  split_ifs with hn
  · rw [abs_of_neg hn, ← abs_neg]
    ring_nf
  · rw [abs_of_nonneg (not_lt.1 hn)]

/-- The sizes are half a divisor apart at most, and the numerator's is the smaller one when they are as far. -/
theorem roundHazAbs_bounds {d : Int} (hd : d ≠ 0) (n : Int) :
    -|d| < 2 * (roundHazAbs n d * |d| - |n|) ∧ 2 * (roundHazAbs n d * |d| - |n|) ≤ |d| := by
  have hpos : 0 < 2 * |d| := by positivity
  have hlow := Int.mul_ediv_self_le (x := 2 * |n| + |d|) hpos.ne'
  have hhigh := Int.lt_mul_ediv_self_add (x := 2 * |n| + |d|) hpos
  rw [← roundHazAbs, mul_assoc, mul_comm |d|] at hlow hhigh
  constructor <;> linarith

/-- `round_haz` is within half a unit of the quotient. -/
theorem abs_roundHaz_mul_sub_le {d : Int} (hd : d ≠ 0) (n : Int) : |roundHaz n d * d - n| * 2 ≤ |d| := by
  obtain ⟨hlow, hhigh⟩ := roundHazAbs_bounds hd n
  have habs : |(roundHazAbs n d * |d| - |n|)| ≤ |d| / 2 := abs_le.2 (by omega)
  rw [abs_roundHaz_mul_sub hd]
  omega

/-- The multiples of two integers are at least one divisor apart. -/
theorem abs_le_abs_mul_sub_mul {m q : Int} (hne : m ≠ q) (d : Int) : |d| ≤ |m * d - q * d| := by
  rw [← sub_mul, abs_mul]
  exact le_mul_of_one_le_left (abs_nonneg d) (Int.one_le_abs (sub_ne_zero.2 hne))

/-- What is within half a unit of the quotient is as near as any integer. -/
theorem abs_mul_sub_le_of_half {n d q : Int} (hq : |q * d - n| * 2 ≤ |d|) (m : Int) : |q * d - n| ≤ |m * d - n| := by
  obtain rfl | hne := eq_or_ne m q
  · exact le_rfl
  · have hstep := abs_le_abs_mul_sub_mul hne d
    have htriangle := abs_sub_le (m * d) n (q * d)
    rw [abs_sub_comm n] at htriangle
    omega

/-- On a tie `round_haz` is the integer farther from zero. -/
theorem abs_lt_abs_roundHaz_mul_of_tie {n d : Int} (hd : d ≠ 0) (htie : 2 * |roundHaz n d * d - n| = |d|) :
    |n| < |roundHaz n d * d| := by
  obtain ⟨hlow, -⟩ := roundHazAbs_bounds hd n
  have hdpos : 0 < |d| := abs_pos.2 hd
  rw [abs_roundHaz_mul_sub hd] at htie
  rw [abs_roundHaz_mul hd]
  obtain hcase | hcase := abs_cases (roundHazAbs n d * |d| - |n|) <;> omega

/-- The quotient of an exact multiple is exact. -/
theorem roundHaz_mul_self {d : Int} (hd : d ≠ 0) (m : Int) : roundHaz (m * d) d = m := by
  have hdpos : 0 < |d| := abs_pos.2 hd
  have hhalf := abs_roundHaz_mul_sub_le hd (m * d)
  by_contra hne
  have hstep := abs_le_abs_mul_sub_mul hne d
  omega

/-- Negating the numerator negates `round_haz`. -/
theorem roundHaz_neg_left {d : Int} (hd : d ≠ 0) (n : Int) : roundHaz (-n) d = -roundHaz n d := by
  obtain rfl | hn := eq_or_ne n 0
  · have hzero : roundHaz 0 d = 0 := by simpa using roundHaz_mul_self hd 0
    rw [neg_zero, hzero, neg_zero]
  · have hflip : decide (-n < 0) = !decide (n < 0) := by
      rw [← decide_not, decide_eq_decide]
      omega
    rw [roundHaz, roundHaz, hflip, Int.natAbs_neg]
    cases decide (n < 0) <;> cases decide (d < 0) <;> simp

/-- Negating the divisor negates `round_haz`. -/
theorem roundHaz_neg_right {d : Int} (hd : d ≠ 0) (n : Int) : roundHaz n (-d) = -roundHaz n d := by
  have hflip : decide (-d < 0) = !decide (d < 0) := by
    rw [← decide_not, decide_eq_decide]
    omega
  rw [roundHaz, roundHaz, hflip, Int.natAbs_neg]
  cases decide (n < 0) <;> cases decide (d < 0) <;> simp

end Sys2Proof.Machine
end

section
/-! SUPPORT. A divisor that means 1.0 (R112). -/

namespace Sys2Proof.Machine

/-- The pattern `2^F` with a whole bit below the sign bit means 1.0, and is aligned to `2^mf`. -/
theorem aligned_one {r t : Shape} (hf : t.f.toNat ≤ r.f.toNat) (hw : (if t.s then 2 else 1) ≤ t.w.toNat) :
    aligned r t (2 ^ t.f.toNat) = 2 ^ r.f.toNat := by
  have hval : val t (2 ^ t.f.toNat) = 2 ^ t.f.toNat := by
    have htop : t.s = true → 2 ^ t.f.toNat < 2 ^ (width t - 1) := by
      intro hs
      rw [if_pos hs] at hw
      exact Nat.pow_lt_pow_right one_lt_two (by simp only [width]; omega)
    rw [val_eq_ite, if_neg fun ⟨hs, hle⟩ => (htop hs).not_ge hle]
    push_cast
    rfl
  rw [aligned, hval, ← pow_add, Nat.add_sub_cancel' hf]

end Sys2Proof.Machine
end

section
/-! The statements about `round_haz` and the laws of DIV (00_scope.md section 5.2, 44_div.md). -/

namespace Sys2Proof.Machine

/-- Settles O37: `round_haz` is within half a unit of the quotient, and any other integer is a whole unit away from
it. -/
theorem roundHazIsNearestTiesAway : Obligations.RoundHazIsNearestTiesAway := fun n _ hd =>
  ⟨abs_mul_sub_le_of_half (abs_roundHaz_mul_sub_le hd n), abs_lt_abs_roundHaz_mul_of_tie hd⟩

/-- Settles O36: the rounded quotient is written modulo `2^nr`, and the rest is what `round_haz` does on a divisor that
is not zero. -/
theorem divLaws : Obligations.DivLaws := by
  intro a b s hv hw hs hz
  obtain ⟨ha, -⟩ := (widthsFit_iff_legalShape .div a b).1 hw
  have hn : 1 ≤ width (promote a b) := width_pos (legalShape_promote hw)
  have hd : alignedB a b s ≠ 0 := mt (aligned_eq_zero_iff (promote a b) (operand_lt b _)).1 hz
  obtain ⟨t, hexec, -, hshape, hraw⟩ := exec_request_pattern_of_legal (op := .div) hv hw hs fun _ => hz
  refine ⟨t, _, hexec, hshape, rfl, abs_roundHaz_mul_sub_le hd _, ?modulo, fun hmin hmax => ?inRange,
    fun hone hwhole => ?byOne, roundHaz_neg_left hd _, roundHaz_neg_right hd _, ?bothNegated⟩
  case bothNegated => rw [roundHaz_neg_right hd, roundHaz_neg_left hd, neg_neg]
  all_goals rw [hraw, requestPattern, divPattern]
  case modulo => exact realVal_pat _ _
  case inRange => exact realVal_pat_of_range hn ⟨hmin, hmax⟩
  case byOne =>
    have hB : alignedB a b s = 2 ^ (promote a b).f.toNat := by
      rw [alignedB, hone, aligned_one (inside_promote_right hs).f hwhole]
    rw [← hB, roundHaz_mul_self hd, realVal_pat_of_range hn (alignedA_range ha hs s), alignedA_div]

end Sys2Proof.Machine
end

section
/-! SUPPORT. A request with its shapes and buses swapped (41_add.md, 43_mul.md). -/

namespace Sys2Proof.Machine

/-- The state with the two operand buses swapped. -/
def swapBuses (s : State) : State := { s with port := { s.port with aRaw := s.port.bRaw, bRaw := s.port.aRaw } }

theorem widthsFit_comm (op : Op) (a b : Shape) : WidthsFit op a b ↔ WidthsFit op b a := by
  rw [widthsFit_iff_legalShape, widthsFit_iff_legalShape, promote_comm b a, and_left_comm]

theorem ovfAdd_comm (r : Shape) (x y : Int) : ovfAdd r x y = ovfAdd r y x := by
  rw [Bool.eq_iff_iff, ovfAdd_iff, ovfAdd_iff, add_comm y x, or_left_comm]

theorem addPattern_comm (sat : Bool) (r : Shape) (x y : Int) : addPattern sat r x y = addPattern sat r y x := by
  rw [addPattern, addPattern, ovfAdd_comm, add_comm]

theorem mulPattern_comm (sat : Bool) (r : Shape) (same : Bool) (x y : Int) :
    mulPattern sat r same x y = mulPattern sat r same y x := by
  simp only [mulPattern, ovfMul, mul_comm]

@[simp] theorem alignedA_swapBuses (a b : Shape) (s : State) : alignedA b a (swapBuses s) = alignedB a b s := by
  rw [alignedA, promote_comm b a]
  rfl

@[simp] theorem alignedB_swapBuses (a b : Shape) (s : State) : alignedB b a (swapBuses s) = alignedA a b s := by
  rw [alignedB, promote_comm b a]
  rfl

@[simp] theorem operandA_swapBuses (t : Shape) (s : State) : operandA t (swapBuses s) = operandB t s := rfl
@[simp] theorem operandB_swapBuses (t : Shape) (s : State) : operandB t (swapBuses s) = operandA t s := rfl
@[simp] theorem policy_swapBuses (s : State) : policy (swapBuses s) = policy s := rfl

/-- Without a zero test, the checks treat the operands alike (R135). -/
theorem requestCause_swapBuses {op : Op} (hop : op ≠ .div) (a b : Shape) (s : State) :
    requestCause op b a (swapBuses s) = requestCause op a b s := by
  simp only [requestCause_eq_ite, widthsFit_comm op b a, ne_comm (a := b.s), hop, false_and, if_false]
  rfl

theorem requestPattern_swapBuses {op : Op} (hop : op = .add ∨ op = .mul) (a b : Shape) (s : State) :
    requestPattern op b a (swapBuses s) = requestPattern op a b s := by
  obtain rfl | rfl := hop <;>
    simp only [requestPattern, promote_comm b a, alignedA_swapBuses, alignedB_swapBuses, operandA_swapBuses,
      operandB_swapBuses, policy_swapBuses]
  · exact addPattern_comm _ _ _ _
  · rw [mulPattern_comm, Bool.beq_comm]

end Sys2Proof.Machine
end

section
/-! The statement about commutativity (41_add.md, 43_mul.md). -/

namespace Sys2Proof.Machine

/-- Settles O38: the checks, the promoted shape and the patterns of ADD and MUL are symmetric in the operands. -/
theorem addAndMulCommute : Obligations.AddAndMulCommute := by
  intro op a b s hop
  have hdiv : op ≠ .div := by
    rintro rfl
    simp at hop
  refine ⟨_, _, exec_request_eq_next op a b s, exec_request_eq_next op b a (swapBuses s), ?_⟩
  rw [setOut_out, setOut_out, requestCause_swapBuses hdiv, requestPattern_swapBuses hop, promote_comm]

end Sys2Proof.Machine
end
